-- ==== Sys2Proof/Word.lean ====
section
/-! DEFINITION. The word types of the block: every register, argument and result is one 32-bit word
(spec/00_scope.md R12); the hardware counters are 16 bits wide (spec/10_state.md R42). -/

namespace Sys2Proof

/-- A 32-bit word (R12). An f32 value is held as its binary32 pattern. -/
abbrev Word := BitVec 32

/-- A 16-bit value: an encoder or stopwatch counter, the FLAGS register (R22, R31, R33). -/
abbrev Half := BitVec 16

/-- A 12-bit register word address (spec/20_memory.md R60). -/
abbrev RegAddr := BitVec 12

/-- The pattern of the f32 value +0.0 (R12). -/
abbrev zeroF : Word := 0#32

/-- The pattern of the f32 value 1.0 (R12). -/
abbrev oneF : Word := 0x3F800000#32

/-- The pattern of the f32 value 2.0 (spec/41_kinematics.md R120). -/
abbrev twoF : Word := 0x40000000#32

/-- The pattern of the f32 value 1000000.0 (spec/40_encoder.md R110). -/
abbrev millionF : Word := 0x49742400#32

/-- Five words: the arguments or the results of one transaction (spec/00_scope.md R10). -/
structure Words5 where
  w0 : Word := 0
  w1 : Word := 0
  w2 : Word := 0
  w3 : Word := 0
  w4 : Word := 0
  deriving DecidableEq, Repr, Inhabited

end Sys2Proof
end

