-- ==== Sys2Proof/Config.lean ====
section
/-! DEFINITION. What an implementation fixes (spec/00_scope.md R7), the events the environment offers
(spec/45_sched_tasks.md R204), and the free values: constants with no body, of which no proof can know
anything. -/

namespace Sys2Proof

/-- `FIFO_FULL_POLICY` of R7: what a put on a full FIFO does. -/
inductive FullPolicy where
  | reject
  | dropOldest
  deriving DecidableEq, Repr, Inhabited

/-- The parameters of R7 that a rule of the block reads. `NUM` is in Machine/Num.lean; the other rows of
R7 (`PERIOD_*`, `TICK_UNIT`, `BYTE_ORDER`) enter no rule. -/
structure Params where
  cmdFifoDepth : Nat
  rampCap      : Nat
  fullPolicy   : FullPolicy
  dbScale      : Word
  deriving DecidableEq, Repr, Inhabited

/-- The parameters of the state after reset. DESIGN CHOICE (log 3): the spec's defaults for `RAMP_CAP`,
`FIFO_FULL_POLICY` and `DB_SCALE`, and its suggestion 8 for the open `CMD_FIFO_DEPTH`; unsafe for a
claim that rests on one of these values, which is why they are a field of State. -/
def Config.defaultParams : Params where
  cmdFifoDepth := 8
  rampCap := 64
  fullPolicy := .reject
  dbScale := oneF

/-- The values the environment presents on the input ports (spec/10_state.md R42). -/
structure Ports where
  encCntA : Half := 0
  encCntB : Half := 0
  swCntA  : Half := 0
  swCntB  : Half := 0
  tNow    : Word := 0
  deriving DecidableEq, Repr, Inhabited

/-- One atomic event (spec/45_sched_tasks.md R204). The first four are the spec's; `drive` is the
environment's change of the values on the input ports (R42), which the spec has between events. -/
inductive Event where
  /-- a pulse on `rst` (spec/70_reset_and_hazards.md R280) -/
  | reset
  /-- one event on `tick` (R201) -/
  | tick
  /-- the host issues the operation word `opw` with its five argument words (spec/00_scope.md R10) -/
  | host (opw : Word) (args : Words5)
  /-- the running task takes one step (R203) -/
  | taskStep
  /-- the environment presents new values on the input ports -/
  | drive (p : Ports)
  deriving DecidableEq, Repr, Inhabited

/-- The primitives of `NUM` whose result can be a NaN (R14). -/
inductive NumOp where
  | add | sub | mul | div | sqrt
  deriving DecidableEq, Repr, Inhabited

/-- FREE VALUE (log 2): the NaN a primitive answers where its result is not a number, as its sign and its
fraction less one; a function of the operands alone (R14). No rule states which NaN it is. -/
opaque Config.nanResult : NumOp → Word → Word → Bool × Fin 8388607

/-- FREE VALUE (log 4): the event that the environment offers at each index once `State.pending` is
empty. Their order and their data are free (R42, R204; spec/93_implementation_defined.md U4, U5). -/
opaque Config.environment : Nat → Event

end Sys2Proof
end

