-- ==== Sys2Proof/Machine/Num.lean ====
section
/-! DEFINITION. The primitives of `NUM` (spec/00_scope.md R14 to R18) in the spec's default instance:
IEEE 754 binary32, round to nearest, ties to even, gradual underflow (log 1). Every primitive is a total
function of its operands; where the result is not a number its pattern is the free value
`Config.nanResult` (log 2). A finite pattern stands for `significand * 2 ^ exponent` with its sign; every
rounding is of one exact value. -/

namespace Sys2Proof.Machine.Num

open Sys2Proof

/-- Bits 30:23 (R12). -/
def expField (x : Word) : Nat := x.toNat / 2 ^ 23 % 256

/-- Bits 22:0 (R12). -/
def fracField (x : Word) : Nat := x.toNat % 2 ^ 23

/-- Bits 30:0, the pattern without its sign. -/
def magnitude (x : Word) : Nat := x.toNat % 2 ^ 31

/-- Not a number. -/
def isNaN (x : Word) : Bool := expField x == 255 && fracField x != 0

/-- An infinity. -/
def isInf (x : Word) : Bool := expField x == 255 && fracField x == 0

/-- Neither a NaN nor an infinity: the premise of the spec's claims (R17). -/
def isFinite (x : Word) : Bool := expField x != 255

/-- Either zero. -/
def isZero (x : Word) : Bool := magnitude x == 0

/-- The integer significand of a finite pattern. -/
def significand (x : Word) : Nat :=
  if expField x = 0 then fracField x else 2 ^ 23 + fracField x

/-- The exponent of the significand's last bit. -/
def exponent (x : Word) : Int :=
  if expField x = 0 then -149 else (expField x : Int) - 150

/-- The pattern with a given sign and magnitude. -/
def withSign (neg : Bool) (mag : Nat) : Word :=
  BitVec.ofNat 32 (mag + if neg then 2 ^ 31 else 0)

/-- The magnitude of an infinity. -/
def infMag : Nat := 0x7F800000

/-- The NaN a primitive answers (log 2): sign and fraction are free, the fraction is not zero. -/
def nan (op : NumOp) (x y : Word) : Word :=
  withSign (Config.nanResult op x y).1 (infMag + 1 + (Config.nanResult op x y).2.val)

/-- `m / 2 ^ d` rounded to the nearest integer, ties to even. -/
def roundShift (m d : Nat) : Nat :=
  let q := m / 2 ^ d
  let r := m % 2 ^ d
  if 2 ^ d < 2 * r || (2 ^ d == 2 * r && q % 2 == 1) then q + 1 else q

/-- The magnitude nearest to `m * 2 ^ e` for `m > 0`, an infinity from the overflow threshold on. The last
bit of the result weighs `2 ^ q`; a carry out of the rounding moves into the exponent field by itself. -/
def roundMag (m : Nat) (e : Int) : Nat :=
  let q : Int := max ((Nat.log2 m : Int) + e - 23) (-149)
  let mant := if q ≤ e then m * 2 ^ (e - q).toNat else roundShift m (q - e).toNat
  min ((q + 149).toNat * 2 ^ 23 + mant) infMag

/-- The pattern nearest to `± m * 2 ^ e`; a zero keeps the given sign. -/
def round (neg : Bool) (m : Nat) (e : Int) : Word :=
  withSign neg (if m = 0 then 0 else roundMag m e)

/-- The signed significand of a finite pattern when its last bit is made to weigh `2 ^ e`, `e` not above
its exponent. -/
def scaled (x : Word) (e : Int) : Int :=
  let m : Int := significand x * 2 ^ (exponent x - e).toNat
  if x.msb then -m else m

/-- The sum of two patterns; `bad` is the answer where it is not a number. An exact zero sum is `+0.0`
unless both addends are negative zeros. -/
def sum (bad x y : Word) : Word :=
  if isNaN x || isNaN y then bad
  else if isInf x then (if isInf y && x.msb != y.msb then bad else x)
  else if isInf y then y
  else
    let e := min (exponent x) (exponent y)
    let z := scaled x e + scaled y e
    if z = 0 then withSign (x.msb && y.msb) 0 else round (decide (z < 0)) z.natAbs e

/-- `fneg`: an exact sign operation (R14). -/
def fneg (x : Word) : Word := x ^^^ 0x80000000#32

/-- `fabs`: an exact sign operation (R14). -/
def fabs (x : Word) : Word := x &&& 0x7FFFFFFF#32

/-- `fadd` (R14). -/
def fadd (x y : Word) : Word := sum (nan .add x y) x y

/-- `fsub` (R14). -/
def fsub (x y : Word) : Word := sum (nan .sub x y) x (fneg y)

/-- `fmul` (R14). -/
def fmul (x y : Word) : Word :=
  let neg := x.msb != y.msb
  if isNaN x || isNaN y then nan .mul x y
  else if isInf x || isInf y then
    (if isZero x || isZero y then nan .mul x y else withSign neg infMag)
  else round neg (significand x * significand y) (exponent x + exponent y)

/-- `fdiv` (R14). The quotient of the significands is taken to 50 further bits, its last bit telling
whether the division left a remainder. -/
def fdiv (x y : Word) : Word :=
  let neg := x.msb != y.msb
  if isNaN x || isNaN y then nan .div x y
  else if isInf x then (if isInf y then nan .div x y else withSign neg infMag)
  else if isInf y then withSign neg 0
  else if isZero y then (if isZero x then nan .div x y else withSign neg infMag)
  else
    let n := significand x * 2 ^ 50
    let sticky := if n % significand y = 0 then 0 else 1
    round neg (2 * (n / significand y) + sticky) (exponent x - exponent y - 51)

/-- The integer square root, bit by bit: the largest root below `2 ^ k` above `acc`. -/
def rootBits (m : Nat) : Nat → Nat → Nat
  | 0, acc => acc
  | k + 1, acc =>
    let next := acc + 2 ^ k
    rootBits m k (if next * next ≤ m then next else acc)

/-- `fsqrt` (R14). The significand is scaled to an even exponent and 50 further bits; the last bit of the
root tells whether it is inexact. -/
def fsqrt (x : Word) : Word :=
  if isNaN x then nan .sqrt x 0
  else if isZero x then x
  else if x.msb then nan .sqrt x 0
  else if isInf x then x
  else
    let odd := exponent x % 2
    let m := significand x * 2 ^ (50 + odd.toNat)
    let r := rootBits m 40 0
    let sticky := if r * r = m then 0 else 1
    round false (2 * r + sticky) ((exponent x - odd) / 2 - 26)

/-- The order of the patterns that are numbers: both zeros at 0. -/
def order (x : Word) : Int := if x.msb then -(magnitude x : Int) else magnitude x

/-- `flt` (R14): false on NaN. -/
def flt (x y : Word) : Bool := !isNaN x && !isNaN y && decide (order x < order y)

/-- `fle` (R14): false on NaN. -/
def fle (x y : Word) : Bool := !isNaN x && !isNaN y && decide (order x ≤ order y)

/-- `fgt` (R14): false on NaN. -/
def fgt (x y : Word) : Bool := flt y x

/-- `feq` (R14): false on NaN, the two zeros equal. -/
def feq (x y : Word) : Bool := !isNaN x && !isNaN y && decide (order x = order y)

/-- `i2f` (R14): the f32 nearest to an integer. -/
def i2f (z : Int) : Word := round (decide (z < 0)) z.natAbs 0

/-- `f2n` (R18): NaN and negatives give 0, `2 ^ 31` and above give `2 ^ 31 - 1`, the rest the floor. -/
def f2n (x : Word) : Nat :=
  if isNaN x || flt x zeroF then 0
  else if isInf x then 2 ^ 31 - 1
  else
    let v := if 0 ≤ exponent x then significand x * 2 ^ (exponent x).toNat
             else significand x / 2 ^ (-(exponent x)).toNat
    min v (2 ^ 31 - 1)

/-- `clamp(v, lo, hi)` (R16). -/
def clamp (v lo hi : Word) : Word :=
  if flt v lo then lo else if fgt v hi then hi else v

end Sys2Proof.Machine.Num
end

