-- ==== Sys2Proof/Syntax.lean ====
section
/-! DEFINITION. The operations of the block (spec/30_encoding.md R82), one constructor for each row of
spec/opcode_table.json, and the kinds of their selectors. Arguments are not part of a word: they are the
argument words of the transaction (R82). -/

namespace Sys2Proof

/-- A motor axis (spec/00_scope.md R3): A is `a = 0`, B is `a = 1`. -/
inductive Axis where
  | A | B
  deriving DecidableEq, Repr, Inhabited

/-- The nine latest-value slots (spec/44_slot_fifo.md R183). -/
inductive Slot where
  /-- `POS_A` 0, `POS_B` 1 -/
  | pos (a : Axis)
  /-- `VEL_A` 2, `VEL_B` 3 -/
  | vel (a : Axis)
  /-- `DT_A` 4, `DT_B` 5 -/
  | dt (a : Axis)
  /-- `HOME_REQ` 6 -/
  | homeReq
  /-- `DUTY_A` 7, `DUTY_B` 8 -/
  | duty (a : Axis)
  deriving DecidableEq, Repr, Inhabited

/-- The 31 operations (R82). Format N has no operand, A an axis, S a slot, R a register address (R81). -/
inductive Instr where
  | nop
  | sysReset
  | sysStart
  | sysStop
  | sysFault
  | sysClrfault
  | cfgRd (addr : RegAddr)
  | cfgWr (addr : RegAddr)
  | encRead (a : Axis)
  | encZero (a : Axis)
  | encPos (a : Axis)
  | encDpos (a : Axis)
  | swRestart (a : Axis)
  | swLap (a : Axis)
  | kinUpdate
  | kinReset
  | kinFwd
  | kinInv
  | kinSeg (a : Axis)
  | rampLoad (a : Axis)
  | rampInit (a : Axis)
  | rampGen (a : Axis)
  | rampNext (a : Axis)
  | rampRelease (a : Axis)
  | pidRun (a : Axis)
  | pidReset (a : Axis)
  | slotPut (k : Slot)
  | slotGet (k : Slot)
  | fifoPut
  | fifoGet
  | motOut (a : Axis)
  deriving DecidableEq, Repr, Inhabited

end Sys2Proof
end

