-- ==== Sys2Proof/WellFormed.lean ====
section
/-! DEFINITION. What a well-formed operation word is (spec/30_encoding.md R81, R84) and what legal
parameters are (spec/00_scope.md R7). The operands of Instr are typed (Axis, Slot, RegAddr), so every
Instr is well-formed by construction: what can be ill-formed is the fields of a raw word. -/

namespace Sys2Proof

/-- The four fields of an operation word (R80). -/
structure RawOp where
  op   : BitVec 8
  sel  : BitVec 4
  reg  : BitVec 12
  zero : BitVec 8
  deriving DecidableEq, Repr, Inhabited

/-- The four formats (R81). -/
inductive Format where
  | N | A | S | R
  deriving DecidableEq, Repr, Inhabited

/-- The table of R82: each defined `op` value with its format. -/
def opFormats : List (Nat × Format) := List.flatten
  [[(0x00, .N), (0x01, .N), (0x02, .N), (0x03, .N), (0x04, .N), (0x05, .N), (0x08, .R), (0x09, .R)],
   [(0x10, .A), (0x11, .A), (0x12, .A), (0x13, .A), (0x18, .A), (0x19, .A)],
   [(0x20, .N), (0x21, .N), (0x22, .N), (0x23, .N), (0x24, .A)],
   [(0x30, .A), (0x31, .A), (0x32, .A), (0x33, .A), (0x34, .A)],
   [(0x40, .A), (0x41, .A), (0x50, .S), (0x51, .S), (0x60, .N), (0x61, .N), (0x70, .A)]]

/-- The format of an `op` value, none where it is not one of the 31 defined values (R83). -/
def formatOf (op : BitVec 8) : Option Format := opFormats.lookup op.toNat

/-- The format's condition on `sel` and `reg` (R81). -/
def Format.admits (sel : BitVec 4) (reg : BitVec 12) : Format → Bool
  | .N => sel == 0 && reg == 0
  | .A => decide (sel.toNat ≤ 1) && reg == 0
  | .S => decide (sel.toNat ≤ 8) && reg == 0
  | .R => sel == 0

/-- R84 read positively: the word is not illegal. -/
def RawOp.wellFormed (r : RawOp) : Bool :=
  r.zero == 0 &&
  match formatOf r.op with
  | some f => f.admits r.sel r.reg
  | none => false

/-- The constraints of R7 on the parameters that a rule reads: the depth of the command FIFO, the capacity of a
waypoint buffer, and a `DB_SCALE` above 0 (which no NaN is). -/
def Params.wellFormed (p : Params) : Bool :=
  decide (1 ≤ p.cmdFifoDepth) && decide (p.cmdFifoDepth ≤ 255) &&
  decide (2 ≤ p.rampCap) && decide (p.rampCap ≤ 256) &&
  Machine.Num.fgt p.dbScale zeroF

end Sys2Proof
end

