-- ==== Sys2Proof/Decode.lean ====
section
/-! DEFINITION. The decoder of operation words, total, rejecting by name (spec/30_encoding.md R80 to R85),
and after it the encoder, written from the same table. -/

namespace Sys2Proof

/-- Why a word is illegal (R84). -/
inductive Illegal where
  /-- `opw[31:24]` is not zero -/
  | reservedBits
  /-- `op` is not one of the 31 defined values -/
  | undefinedOp
  /-- formats N and R: `sel` is not zero -/
  | selNotZero
  /-- formats N, A and S: `reg` is not zero -/
  | regNotZero
  /-- format A: `sel > 1` -/
  | axisOutOfRange
  /-- format S: `sel > 8` -/
  | slotOutOfRange
  deriving DecidableEq, Repr

/-- The fields of a word (R80). -/
def splitWord (w : Word) : RawOp where
  op := w.extractLsb' 0 8
  sel := w.extractLsb' 8 4
  reg := w.extractLsb' 12 12
  zero := w.extractLsb' 24 8

/-- The axis a selector names (R81, format A). -/
def axisOfSel (sel : BitVec 4) : Option Axis :=
  match sel.toNat with
  | 0 => some .A
  | 1 => some .B
  | _ => none

/-- The slot a selector names (R183). -/
def slotOfSel (sel : BitVec 4) : Option Slot :=
  match sel.toNat with
  | 0 => some (.pos .A)
  | 1 => some (.pos .B)
  | 2 => some (.vel .A)
  | 3 => some (.vel .B)
  | 4 => some (.dt .A)
  | 5 => some (.dt .B)
  | 6 => some .homeReq
  | 7 => some (.duty .A)
  | 8 => some (.duty .B)
  | _ => none

/-- Format N: no selector, no register (R81). -/
def decodeN (r : RawOp) (i : Instr) : Except Illegal Instr :=
  if r.sel ≠ 0 then .error .selNotZero
  else if r.reg ≠ 0 then .error .regNotZero
  else .ok i

/-- Format A: `sel` is the axis (R81). -/
def decodeA (r : RawOp) (f : Axis → Instr) : Except Illegal Instr :=
  if r.reg ≠ 0 then .error .regNotZero
  else match axisOfSel r.sel with
    | some a => .ok (f a)
    | none => .error .axisOutOfRange

/-- Format S: `sel` is the slot number (R81). -/
def decodeS (r : RawOp) (f : Slot → Instr) : Except Illegal Instr :=
  if r.reg ≠ 0 then .error .regNotZero
  else match slotOfSel r.sel with
    | some k => .ok (f k)
    | none => .error .slotOutOfRange

/-- Format R: `reg` is the register word address (R81). -/
def decodeR (r : RawOp) (f : RegAddr → Instr) : Except Illegal Instr :=
  if r.sel ≠ 0 then .error .selNotZero else .ok (f r.reg)

/-- The operation of the fields of a word, by the table of R82. -/
def decodeRaw (r : RawOp) : Except Illegal Instr :=
  if r.zero ≠ 0 then .error .reservedBits
  else match r.op.toNat with
    | 0x00 => decodeN r .nop
    | 0x01 => decodeN r .sysReset
    | 0x02 => decodeN r .sysStart
    | 0x03 => decodeN r .sysStop
    | 0x04 => decodeN r .sysFault
    | 0x05 => decodeN r .sysClrfault
    | 0x08 => decodeR r .cfgRd
    | 0x09 => decodeR r .cfgWr
    | 0x10 => decodeA r .encRead
    | 0x11 => decodeA r .encZero
    | 0x12 => decodeA r .encPos
    | 0x13 => decodeA r .encDpos
    | 0x18 => decodeA r .swRestart
    | 0x19 => decodeA r .swLap
    | 0x20 => decodeN r .kinUpdate
    | 0x21 => decodeN r .kinReset
    | 0x22 => decodeN r .kinFwd
    | 0x23 => decodeN r .kinInv
    | 0x24 => decodeA r .kinSeg
    | 0x30 => decodeA r .rampLoad
    | 0x31 => decodeA r .rampInit
    | 0x32 => decodeA r .rampGen
    | 0x33 => decodeA r .rampNext
    | 0x34 => decodeA r .rampRelease
    | 0x40 => decodeA r .pidRun
    | 0x41 => decodeA r .pidReset
    | 0x50 => decodeS r .slotPut
    | 0x51 => decodeS r .slotGet
    | 0x60 => decodeN r .fifoPut
    | 0x61 => decodeN r .fifoGet
    | 0x70 => decodeA r .motOut
    | _ => .error .undefinedOp

/-- The decoder: every 32-bit word has exactly one outcome (R85). -/
def decode (w : Word) : Except Illegal Instr := decodeRaw (splitWord w)

/-- The instruction the decoder reads from a word given as a number of `nbits` bits, bit 0 the least
significant; the block has one word of 32 bits and no byte order (R62, R80). -/
def decodeTableWord (nbits w : Nat) : Option Instr :=
  (decode (BitVec.ofNat 32 (w % 2 ^ nbits))).toOption

/-- The selector of an axis (R3, R81). -/
def axisSel : Axis → BitVec 4
  | .A => 0
  | .B => 1

/-- The selector of a slot, its number (R183). -/
def slotSel : Slot → BitVec 4
  | .pos .A => 0
  | .pos .B => 1
  | .vel .A => 2
  | .vel .B => 3
  | .dt .A => 4
  | .dt .B => 5
  | .homeReq => 6
  | .duty .A => 7
  | .duty .B => 8

/-- The fields of a format N word. -/
def rawN (op : BitVec 8) : RawOp := ⟨op, 0, 0, 0⟩

/-- The fields of a format A word. -/
def rawA (op : BitVec 8) (a : Axis) : RawOp := ⟨op, axisSel a, 0, 0⟩

/-- The fields of a format S word. -/
def rawS (op : BitVec 8) (k : Slot) : RawOp := ⟨op, slotSel k, 0, 0⟩

/-- The fields of a format R word. -/
def rawR (op : BitVec 8) (addr : RegAddr) : RawOp := ⟨op, 0, addr, 0⟩

/-- The fields of an operation's word, by the table of R82. -/
def rawOf : Instr → RawOp
  | .nop => rawN 0x00
  | .sysReset => rawN 0x01
  | .sysStart => rawN 0x02
  | .sysStop => rawN 0x03
  | .sysFault => rawN 0x04
  | .sysClrfault => rawN 0x05
  | .cfgRd addr => rawR 0x08 addr
  | .cfgWr addr => rawR 0x09 addr
  | .encRead a => rawA 0x10 a
  | .encZero a => rawA 0x11 a
  | .encPos a => rawA 0x12 a
  | .encDpos a => rawA 0x13 a
  | .swRestart a => rawA 0x18 a
  | .swLap a => rawA 0x19 a
  | .kinUpdate => rawN 0x20
  | .kinReset => rawN 0x21
  | .kinFwd => rawN 0x22
  | .kinInv => rawN 0x23
  | .kinSeg a => rawA 0x24 a
  | .rampLoad a => rawA 0x30 a
  | .rampInit a => rawA 0x31 a
  | .rampGen a => rawA 0x32 a
  | .rampNext a => rawA 0x33 a
  | .rampRelease a => rawA 0x34 a
  | .pidRun a => rawA 0x40 a
  | .pidReset a => rawA 0x41 a
  | .slotPut k => rawS 0x50 k
  | .slotGet k => rawS 0x51 k
  | .fifoPut => rawN 0x60
  | .fifoGet => rawN 0x61
  | .motOut a => rawA 0x70 a

/-- The word of four fields: `zero` in 31:24, `reg` in 23:12, `sel` in 11:8, `op` in 7:0 (R80). -/
def packWord (r : RawOp) : Word := r.zero ++ r.reg ++ r.sel ++ r.op

/-- The encoder: the one word of an operation (R83). -/
def encode (i : Instr) : Word := packWord (rawOf i)

end Sys2Proof
end

