-- ==== Sys2Proof/Machine/State.lean ====
section
/-! DEFINITION. The state of the block as plain data (spec/10_state.md), the reset state
(spec/70_reset_and_hazards.md R281), and the reasons a step can stop. -/

namespace Sys2Proof.Machine

open Sys2Proof

/-- The five tasks (spec/45_sched_tasks.md R200). -/
inductive TaskId where
  /-- `ENC_A` 0, `ENC_B` 1 -/
  | enc (a : Axis)
  /-- `CTRL` 2 -/
  | ctrl
  /-- `MOT_A` 3, `MOT_B` 4 -/
  | mot (a : Axis)
  deriving DecidableEq, Repr, Inhabited

/-- Who issues a transaction (spec/00_scope.md R9). -/
inductive Agent where
  | host
  | task (t : TaskId)
  deriving DecidableEq, Repr, Inhabited

/-- The status of a transaction (spec/60_exceptions.md R250). -/
inductive Status where
  | ok | noMotion | allocFault | notInit | empty | full | busy | denied | illegal | hold
  deriving DecidableEq, Repr, Inhabited

/-- `RAMP_STATE` (spec/42_ramp.md R140). -/
inductive RampState where
  | idle | allocated | ready
  deriving DecidableEq, Repr, Inhabited

/-- A ramp waypoint buffer (R37): (index, word) pairs, indices strictly rising, no word equal to the
reset content +0.0 that an unlisted index reads as (log 9). -/
abbrev RampBuf := List (Nat × Word)

/-- The task temporaries `tmp[t][0..7]` (R29). -/
structure Temps where
  t0 : Word := 0
  t1 : Word := 0
  t2 : Word := 0
  t3 : Word := 0
  t4 : Word := 0
  t5 : Word := 0
  t6 : Word := 0
  t7 : Word := 0
  deriving DecidableEq, Repr, Inhabited

/-- What the scheduler holds for one task: `PERIOD` (R27), `WAKE`, `READY` (R28), `tstep` (R21), `tmp` (R29). -/
structure TaskRegs where
  period : Word := 0
  wake   : Word := 0
  ready  : Bool := false
  tstep  : BitVec 8 := 0
  tmp    : Temps := {}
  deriving DecidableEq, Repr, Inhabited

/-- The five tasks' registers. -/
structure Tasks where
  encA : TaskRegs := {}
  encB : TaskRegs := {}
  ctrl : TaskRegs := {}
  motA : TaskRegs := {}
  motB : TaskRegs := {}
  deriving DecidableEq, Repr, Inhabited

/-- The Kinematics registers (R30). -/
structure KinRegs where
  curX  : Word := zeroF
  curY  : Word := zeroF
  curF  : Word := zeroF
  lastX : Word := zeroF
  lastY : Word := zeroF
  lastF : Word := zeroF
  deriving DecidableEq, Repr, Inhabited

/-- The encoder registers of one axis (R31, R32). -/
structure EncRegs where
  raw       : Half := 0
  lastRaw   : Half := 0
  abs       : Word := 0
  lastDelta : Word := 0
  ovfBound  : Word := 0
  inverted  : Bool := false
  tpr       : Word := zeroF
  mmpr      : Word := zeroF
  deriving DecidableEq, Repr, Inhabited

/-- The stopwatch registers of one axis (R33). -/
structure SwRegs where
  count : Half := 0
  last  : Half := 0
  deriving DecidableEq, Repr, Inhabited

/-- The PID registers of one axis (R34, R35). -/
structure PidRegs where
  kp            : Word := zeroF
  ki            : Word := zeroF
  kd            : Word := zeroF
  deadbandPct   : Word := zeroF
  satLow        : Word := zeroF
  satHigh       : Word := zeroF
  derivTau      : Word := zeroF
  integralMax   : Word := zeroF
  integralAccum : Word := zeroF
  lastError     : Word := zeroF
  filtDeriv     : Word := zeroF
  lastTime      : Word := zeroF
  lastOutput    : Word := zeroF
  pidInit       : Bool := false
  deriving DecidableEq, Repr, Inhabited

/-- The ramp registers and waypoint buffer of one axis (R36, R37). -/
structure RampRegs where
  slice    : Word := zeroF
  cur      : Word := zeroF
  last     : Word := zeroF
  feed     : Word := zeroF
  tt       : Word := zeroF
  n        : Word := 0
  count    : Word := 0
  rd       : Word := 0
  state    : RampState := .idle
  termFeed : Word := zeroF
  buf      : RampBuf := []
  deriving DecidableEq, Repr, Inhabited

/-- Everything held per motor axis: the register block of R31 to R39 and the axis's output port (R43).
`dutyStb` is the strobe: true exactly after a step that drove `dutyOut` (log 8). -/
structure AxisRegs where
  enc     : EncRegs := {}
  sw      : SwRegs := {}
  pid     : PidRegs := {}
  ramp    : RampRegs := {}
  sp      : Word := zeroF
  dutyOut : Word := zeroF
  dutyStb : Bool := false
  deriving DecidableEq, Repr, Inhabited

/-- One latest-value slot (R40). -/
structure SlotCell where
  val   : Word := 0
  valid : Bool := false
  deriving DecidableEq, Repr, Inhabited

/-- The nine slots (R40; spec/44_slot_fifo.md R183). -/
structure Slots where
  posA    : SlotCell := {}
  posB    : SlotCell := {}
  velA    : SlotCell := {}
  velB    : SlotCell := {}
  dtA     : SlotCell := {}
  dtB     : SlotCell := {}
  homeReq : SlotCell := {}
  dutyA   : SlotCell := {}
  dutyB   : SlotCell := {}
  deriving DecidableEq, Repr, Inhabited

/-- One entry of the command FIFO (R45). -/
structure Command where
  x        : Word
  y        : Word
  s        : Word
  f        : Word
  moveType : Word
  deriving DecidableEq, Repr, Inhabited

/-- The operation port: the transaction in progress and its response (spec/00_scope.md R10). The spec
holds none of it between transactions; it is the model's own field (log 7). -/
structure OpPort where
  issuer : Agent := .host
  args   : Words5 := {}
  status : Status := .ok
  res    : Words5 := {}
  deriving DecidableEq, Repr, Inhabited

/-- The machine. The last four fields are the model's own: the values on the input ports (log 6), the
operation port (log 7), the events offered and not yet taken, and how many events have been drawn from
`Config.environment` (log 4). -/
structure State where
  params    : Params := Config.defaultParams
  schedEn   : Bool := false
  fault     : Bool := false
  flags     : Half := 0
  schedTime : Word := 0
  tasks     : Tasks := {}
  kin       : KinRegs := {}
  axisA     : AxisRegs := {}
  axisB     : AxisRegs := {}
  slots     : Slots := {}
  fifo      : List Command := []
  ports     : Ports := {}
  op        : OpPort := {}
  pending   : List Event := []
  envIndex  : Nat := 0
  deriving DecidableEq, Repr, Inhabited

/-- Reasons for a fault. There are none: nothing in this block traps (spec/60_exceptions.md R254); every
outcome of a transaction is a next state with a status. -/
inductive Fault where
  deriving DecidableEq, Repr

/-- Reasons for a refusal. -/
inductive Refusal where
  /-- raised by exec's arm of an instruction that has no meaning yet (no arm does); safe -/
  | notModelled (mnemonic : String)
  deriving DecidableEq, Repr

/-- The state after reset (R46; spec/70_reset_and_hazards.md R281): every register 0, every slot "none",
the FIFO empty, configuration mode, no task ready. The parameters are log 3's; the input ports, which
reset does not define (R282), are log 6's; no event is pending. -/
def State.reset : State where
  params := Config.defaultParams
  schedEn := false
  fault := false
  flags := 0
  schedTime := 0
  tasks := {}
  kin := {}
  axisA := {}
  axisB := {}
  slots := {}
  fifo := []
  ports := {}
  op := {}
  pending := []
  envIndex := 0

end Sys2Proof.Machine
end

