-- ==== Sys2Proof/Machine/Operands.lean ====
section
/-! DEFINITION. The typing of argument and result words (spec/00_scope.md R11, R12; spec/30_encoding.md
R82), the numbering of axes, slots and tasks, and the numeric forms of statuses and states. -/

namespace Sys2Proof.Machine

open Sys2Proof

/-- A bool result: bit 0, bits 31:1 zero (R12). -/
def boolWord (b : Bool) : Word := if b then 1 else 0

/-- A bool argument: only bit 0 is used (R82). -/
def argBool (w : Word) : Bool := w.getLsbD 0

/-- A u16 result: zero-extended (R12). -/
def u16Word (h : Half) : Word := h.setWidth 32

/-- A u16 argument: only bits 15:0 are used (R82). -/
def argU16 (w : Word) : Half := w.setWidth 16

/-- A u32 result: the word congruent to a natural number. -/
def u32Word (n : Nat) : Word := BitVec.ofNat 32 n

/-- `sext_32`: a word read as i32 (R11). -/
def i32Val (w : Word) : Int := w.toInt

/-- `wrap_i32`: the i32 congruent to an integer modulo 2^32, as its pattern (R11). -/
def wrapI32 (z : Int) : Word := BitVec.ofInt 32 z

/-- `sext_16`: a 16-bit pattern read as two's complement (R11). -/
def sext16 (h : Half) : Int := h.toInt

/-- The other axis. -/
def otherAxis : Axis → Axis
  | .A => .B
  | .B => .A

/-- The axis index `a` (R3). -/
def axisNum : Axis → Nat
  | .A => 0
  | .B => 1

/-- The task index `t` (spec/45_sched_tasks.md R200). -/
def taskNum : TaskId → Nat
  | .enc a => axisNum a
  | .ctrl => 2
  | .mot a => 3 + axisNum a

/-- The tasks in the order of their indices, which is the order of their priorities (R200). -/
def taskList : List TaskId := [.enc .A, .enc .B, .ctrl, .mot .A, .mot .B]

/-- The length of a task's body (R200). -/
def bodyLen : TaskId → Nat
  | .enc _ => 9
  | .ctrl => 32
  | .mot _ => 2

/-- The code of a status (spec/60_exceptions.md R250). -/
def statusCode : Status → BitVec 4
  | .ok => 0
  | .noMotion => 1
  | .allocFault => 2
  | .notInit => 3
  | .empty => 4
  | .full => 5
  | .busy => 6
  | .denied => 7
  | .illegal => 8
  | .hold => 9

/-- The number of a ramp state (spec/10_state.md R36). -/
def rampStateWord : RampState → Word
  | .idle => 0
  | .allocated => 1
  | .ready => 2

end Sys2Proof.Machine
end

