-- ==== Sys2Proof/Machine/Flags.lean ====
section
/-! DEFINITION. The sticky event flags (spec/10_state.md R22, spec/60_exceptions.md R252): which bit each
event sets, setting a flag, and the host's write-one-to-clear. -/

namespace Sys2Proof.Machine

open Sys2Proof

/-- The flags of R22. -/
inductive Flag where
  | noMotion (a : Axis)
  | alloc (a : Axis)
  | notInit (a : Axis)
  | dtHold (a : Axis)
  | fifoFull
  | overrun (t : TaskId)
  | denied
  | illegal
  deriving DecidableEq, Repr

/-- The bit of a flag (R22). -/
def flagBit : Flag → Nat
  | .noMotion a => axisNum a
  | .alloc a => 2 + axisNum a
  | .notInit a => 4 + axisNum a
  | .dtHold a => 6 + axisNum a
  | .fifoFull => 8
  | .overrun t => 9 + taskNum t
  | .denied => 14
  | .illegal => 15

/-- FLAGS with one flag set. -/
def setFlagBit (f : Half) (g : Flag) : Half := f ||| BitVec.twoPow 16 (flagBit g)

/-- FLAGS after the host writes `w`: 1 bits clear, 0 bits leave, bits 31:16 are ignored
(R22; spec/46_sys_cfg.md R237). -/
def clearFlagBits (f : Half) (w : Word) : Half := f &&& ~~~(argU16 w)

/-- Replace FLAGS. -/
def State.setFlags (s : State) (f : Half) : State := { s with flags := f }

/-- Set a flag; it stays set until the host clears it or reset (R22). -/
@[simp] def State.raise (s : State) (g : Flag) : State := s.setFlags (setFlagBit s.flags g)

/-- Whether a flag is set. -/
def State.flag (s : State) (g : Flag) : Bool := s.flags.getLsbD (flagBit g)

end Sys2Proof.Machine
end

