-- ==== Sys2Proof/Machine/Ops.lean ====
section
/-! DEFINITION. The named operations over the state that the meanings share: the registers of an axis and
of a task, the slots, the waypoint buffer, the response of a transaction, the rights of the host, reset,
and what this block has in place of an exception: one operation that ends a transaction with a status and
its sticky flag (spec/60_exceptions.md R250 to R254), and the entry into and the exit from the fault state
(R255). -/

namespace Sys2Proof.Machine

open Sys2Proof

/-! ### The single registers -/

/-- Write `CTRL.SCHED_EN` (R24). -/
def State.setSchedEn (s : State) (b : Bool) : State := { s with schedEn := b }

/-- Write `CTRL.FAULT` (R24). -/
def State.setFault (s : State) (b : Bool) : State := { s with fault := b }

/-- Write `SCHED_TIME` (R25). -/
def State.setTime (s : State) (w : Word) : State := { s with schedTime := w }

/-- Write the Kinematics registers (R30). -/
def State.setKin (s : State) (k : KinRegs) : State := { s with kin := k }

/-- Write the command FIFO (R41). -/
def State.setFifo (s : State) (q : List Command) : State := { s with fifo := q }

/-- Present other values on the input ports (R42). -/
def State.setPorts (s : State) (p : Ports) : State := { s with ports := p }

/-- Replace the events offered and not yet taken (log 4). -/
def State.setPending (s : State) (l : List Event) : State := { s with pending := l }

/-- Replace the index of the next event drawn from the environment (log 4). -/
def State.setEnvIndex (s : State) (n : Nat) : State := { s with envIndex := n }

/-! ### Registers of an axis and of a task -/

/-- The registers of an axis. -/
def State.axis (s : State) : Axis → AxisRegs
  | .A => s.axisA
  | .B => s.axisB

/-- Replace the registers of an axis. -/
def State.setAxis (s : State) (a : Axis) (r : AxisRegs) : State :=
  match a with
  | .A => { s with axisA := r }
  | .B => { s with axisB := r }

/-- The registers of a task. -/
def State.task (s : State) : TaskId → TaskRegs
  | .enc .A => s.tasks.encA
  | .enc .B => s.tasks.encB
  | .ctrl => s.tasks.ctrl
  | .mot .A => s.tasks.motA
  | .mot .B => s.tasks.motB

/-- Replace the registers of a task. -/
def State.setTask (s : State) (t : TaskId) (r : TaskRegs) : State :=
  match t with
  | .enc .A => { s with tasks := { s.tasks with encA := r } }
  | .enc .B => { s with tasks := { s.tasks with encB := r } }
  | .ctrl => { s with tasks := { s.tasks with ctrl := r } }
  | .mot .A => { s with tasks := { s.tasks with motA := r } }
  | .mot .B => { s with tasks := { s.tasks with motB := r } }

/-- Change the encoder registers of an axis. -/
@[simp] def State.mapEnc (s : State) (a : Axis) (f : EncRegs → EncRegs) : State :=
  s.setAxis a { s.axis a with enc := f (s.axis a).enc }

/-- Change the stopwatch registers of an axis. -/
@[simp] def State.mapSw (s : State) (a : Axis) (f : SwRegs → SwRegs) : State :=
  s.setAxis a { s.axis a with sw := f (s.axis a).sw }

/-- Change the PID registers of an axis. -/
@[simp] def State.mapPid (s : State) (a : Axis) (f : PidRegs → PidRegs) : State :=
  s.setAxis a { s.axis a with pid := f (s.axis a).pid }

/-- Change the ramp registers of an axis. -/
@[simp] def State.mapRamp (s : State) (a : Axis) (f : RampRegs → RampRegs) : State :=
  s.setAxis a { s.axis a with ramp := f (s.axis a).ramp }

/-- Write `SP[a]` (spec/10_state.md R39). -/
@[simp] def State.setSp (s : State) (a : Axis) (w : Word) : State :=
  s.setAxis a { s.axis a with sp := w }

/-- Change the temporaries of a task (R29). -/
@[simp] def State.mapTmp (s : State) (t : TaskId) (f : Temps → Temps) : State :=
  s.setTask t { s.task t with tmp := f (s.task t).tmp }

/-! ### Ports -/

/-- Drive `duty_out[a]` and its strobe (R43). -/
@[simp] def State.driveDuty (s : State) (a : Axis) (w : Word) : State :=
  s.setAxis a { s.axis a with dutyOut := w, dutyStb := true }

/-- End the strobe of an axis (log 8). -/
@[simp] def State.endStrobe (s : State) (a : Axis) : State :=
  s.setAxis a { s.axis a with dutyStb := false }

/-- `port.enc_cnt[a]` (R42): the value presented now; reading has no effect on it. -/
def State.portEnc (s : State) : Axis → Half
  | .A => s.ports.encCntA
  | .B => s.ports.encCntB

/-- `port.sw_cnt[a]` (R42). -/
def State.portSw (s : State) : Axis → Half
  | .A => s.ports.swCntA
  | .B => s.ports.swCntB

/-! ### Slots -/

/-- A slot's value and valid bit (R40). -/
def State.slot (s : State) : Slot → SlotCell
  | .pos .A => s.slots.posA
  | .pos .B => s.slots.posB
  | .vel .A => s.slots.velA
  | .vel .B => s.slots.velB
  | .dt .A => s.slots.dtA
  | .dt .B => s.slots.dtB
  | .homeReq => s.slots.homeReq
  | .duty .A => s.slots.dutyA
  | .duty .B => s.slots.dutyB

/-- Replace a slot's value and valid bit together. -/
def State.setSlot (s : State) (k : Slot) (c : SlotCell) : State :=
  match k with
  | .pos .A => { s with slots := { s.slots with posA := c } }
  | .pos .B => { s with slots := { s.slots with posB := c } }
  | .vel .A => { s with slots := { s.slots with velA := c } }
  | .vel .B => { s with slots := { s.slots with velB := c } }
  | .dt .A => { s with slots := { s.slots with dtA := c } }
  | .dt .B => { s with slots := { s.slots with dtB := c } }
  | .homeReq => { s with slots := { s.slots with homeReq := c } }
  | .duty .A => { s with slots := { s.slots with dutyA := c } }
  | .duty .B => { s with slots := { s.slots with dutyB := c } }

/-- The word a put stores: `HOME_REQ` is a bool and keeps bit 0 only (spec/44_slot_fifo.md R181). -/
def slotStored (k : Slot) (w : Word) : Word :=
  match k with
  | .homeReq => boolWord (argBool w)
  | _ => w

/-- The put of R181: value and valid bit together. -/
@[simp] def State.putSlot (s : State) (k : Slot) (w : Word) : State :=
  s.setSlot k { val := slotStored k w, valid := true }

/-! ### The waypoint buffer (R37) -/

/-- The word at an index; an unlisted index reads as the reset content +0.0. -/
def bufRead : RampBuf → Nat → Word
  | [], _ => zeroF
  | (k, w) :: rest, i => if k = i then w else bufRead rest i

/-- An entry before a buffer, left out where its word is what an unlisted index reads as. -/
def bufCons (i : Nat) (v : Word) (rest : RampBuf) : RampBuf :=
  if v = zeroF then rest else (i, v) :: rest

/-- Write one word, keeping the canonical form. -/
def bufWrite : RampBuf → Nat → Word → RampBuf
  | [], i, v => bufCons i v []
  | (k, w) :: rest, i, v =>
    if i < k then bufCons i v ((k, w) :: rest)
    else if i = k then bufCons i v rest
    else (k, w) :: bufWrite rest i v

/-- The canonical form: indices strictly rising from `lo` and below `hi`, no word +0.0. -/
def bufWfFrom (lo hi : Nat) : RampBuf → Bool
  | [] => true
  | (k, w) :: rest => decide (lo ≤ k) && decide (k < hi) && w != zeroF && bufWfFrom (k + 1) hi rest

/-- The canonical form of a buffer of `cap` words. -/
def bufWf (cap : Nat) (b : RampBuf) : Bool := bufWfFrom 0 cap b

/-! ### The response of a transaction -/

/-- `return (S; r0, r1, ...)` (spec/00_scope.md R13): the results not named are 0 (R10). -/
def State.respond (s : State) (st : Status) (r : Words5) : State :=
  { s with op := { s.op with status := st, res := r } }

/-- End a transaction with a status other than `OK` whose rule makes no other state change: the sticky
flag, where the status records one, and all results 0 (R82; spec/60_exceptions.md R252, R254). This is
all the block has in place of taking an exception: nothing is saved and nothing is vectored. -/
def State.reject (s : State) (st : Status) (g : Option Flag) : State :=
  match g with
  | some g => (s.raise g).respond st {}
  | none => s.respond st {}

/-- The answer to an illegal word (spec/30_encoding.md R84). -/
def State.rejectIllegal (s : State) : State := s.reject .illegal (some .illegal)

/-- The answer to a host operation or register write without the right (R260, R237). -/
def State.rejectDenied (s : State) : State := s.reject .denied (some .denied)

/-- The transaction is the host's and the block is in run mode (spec/60_exceptions.md R259). -/
def State.hostInRun (s : State) : Bool := s.op.issuer == .host && s.schedEn

/-- An operation outside the host's rights in run mode (R85 step 2, R260): denied to the host there,
otherwise its own rule runs. -/
def State.ownerOnly (s : State) (rule : State → State) : State :=
  if s.hostInRun then s.rejectDenied else rule s

/-- The operation port takes a transaction of an agent (R10). -/
def State.issue (s : State) (who : Agent) (args : Words5) : State :=
  { s with op := { s.op with issuer := who, args := args } }

/-! ### Reset and the fault state -/

/-- Reset (spec/70_reset_and_hazards.md R281): every register as at reset but the parameters, which are
constants (R26); what the environment drives and offers is not the block's state (R282; log 7). -/
def State.restart (s : State) : State :=
  { State.reset with
    params := s.params, ports := s.ports, pending := s.pending, envIndex := s.envIndex }

/-- The state writes of `PID.RESET` (spec/43_pid.md R164). -/
def pidCleared (p : PidRegs) : PidRegs :=
  { p with
    integralAccum := zeroF, lastError := zeroF, filtDeriv := zeroF, lastTime := zeroF,
    lastOutput := zeroF, pidInit := false }

/-- Entry into the fault state (spec/46_sys_cfg.md R234): the fault bit, and both duty slots +0.0 and
valid; nothing is saved (spec/60_exceptions.md R255). -/
def State.enterFault (s : State) : State :=
  ((s.setFault true).putSlot (.duty .A) zeroF).putSlot (.duty .B) zeroF

/-- Exit from the fault state (R235): the fault bit cleared and both controllers reset. -/
def State.leaveFault (s : State) : State :=
  ((s.setFault false).mapPid .A pidCleared).mapPid .B pidCleared

end Sys2Proof.Machine
end

