-- ==== Sys2Proof/Machine/Registers.lean ====
section
/-! DEFINITION. The register space (spec/10_state.md sections 2.1 to 2.4, spec/20_memory.md R65): which
register stands at each word address, what it reads as, its access class, and the host's write. -/

namespace Sys2Proof.Machine

open Sys2Proof

/-- The registers of an axis block (R31 to R39). -/
inductive AxisReg where
  | encRaw | encLastRaw | encAbs | encLastDelta | encOvfBound | encInverted | encTpr | encMmpr
  | swCount | swLast
  | kp | ki | kd | deadbandPct | satLow | satHigh | derivTau | integralMax
  | integralAccum | lastError | filtDeriv | lastTime | lastOutput | pidInit
  | rampSlice | rampCur | rampLast | rampFeed | rampTt | rampN | rampCount | rampRd | rampState
  | rampTermFeed
  | sp
  deriving DecidableEq, Repr

/-- The mapped registers (R65). -/
inductive Reg where
  | ctrl | flags | schedTime | params
  | period (t : TaskId) | wake (t : TaskId) | tstat (t : TaskId)
  | kinCurX | kinCurY | kinCurF | kinLastX | kinLastY | kinLastF
  | slotVal (k : Slot) | slotValid (k : Slot)
  | fifoCount
  | axis (a : Axis) (r : AxisReg)
  | rampBuf (a : Axis) (i : BitVec 8)
  deriving DecidableEq, Repr

/-- The access classes (R23). -/
inductive RegClass where
  | ro | cfg | w1c
  deriving DecidableEq, Repr

/-- The offset of a register in its axis block (R31 to R39). -/
def axisRegOffset : AxisReg → Nat
  | .encRaw => 0x00 | .encLastRaw => 0x01 | .encAbs => 0x02 | .encLastDelta => 0x03
  | .encOvfBound => 0x04 | .encInverted => 0x05 | .encTpr => 0x06 | .encMmpr => 0x07
  | .swCount => 0x08 | .swLast => 0x09
  | .kp => 0x10 | .ki => 0x11 | .kd => 0x12 | .deadbandPct => 0x13 | .satLow => 0x14
  | .satHigh => 0x15 | .derivTau => 0x16 | .integralMax => 0x17 | .integralAccum => 0x18
  | .lastError => 0x19 | .filtDeriv => 0x1A | .lastTime => 0x1B | .lastOutput => 0x1C
  | .pidInit => 0x1D
  | .rampSlice => 0x20 | .rampCur => 0x21 | .rampLast => 0x22 | .rampFeed => 0x23
  | .rampTt => 0x24 | .rampN => 0x25 | .rampCount => 0x26 | .rampRd => 0x27
  | .rampState => 0x28 | .rampTermFeed => 0x29
  | .sp => 0x30

/-- The number of a slot (spec/44_slot_fifo.md R183). -/
def slotNum : Slot → Nat
  | .pos a => axisNum a
  | .vel a => 2 + axisNum a
  | .dt a => 4 + axisNum a
  | .homeReq => 6
  | .duty a => 7 + axisNum a

/-- The base `AX(a)` of an axis block (spec/10_state.md section 2.3). -/
def axisBase (a : Axis) : Nat := 0x100 + 0x80 * axisNum a

/-- The word address of a register. -/
def regAddr : Reg → Nat
  | .ctrl => 0x000
  | .flags => 0x001
  | .schedTime => 0x002
  | .params => 0x003
  | .period t => 0x008 + taskNum t
  | .wake t => 0x010 + taskNum t
  | .tstat t => 0x018 + taskNum t
  | .kinCurX => 0x040
  | .kinCurY => 0x041
  | .kinCurF => 0x042
  | .kinLastX => 0x044
  | .kinLastY => 0x045
  | .kinLastF => 0x046
  | .slotVal k => 0x060 + 2 * slotNum k
  | .slotValid k => 0x061 + 2 * slotNum k
  | .fifoCount => 0x080
  | .axis a r => axisBase a + axisRegOffset r
  | .rampBuf a i => 0x400 + 0x100 * axisNum a + i.toNat

/-- The register at an offset of an axis block, none where the offset is unmapped. -/
def axisRegAt (off : Nat) : Option AxisReg :=
  match off with
  | 0x00 => some .encRaw | 0x01 => some .encLastRaw | 0x02 => some .encAbs
  | 0x03 => some .encLastDelta | 0x04 => some .encOvfBound | 0x05 => some .encInverted
  | 0x06 => some .encTpr | 0x07 => some .encMmpr | 0x08 => some .swCount | 0x09 => some .swLast
  | 0x10 => some .kp | 0x11 => some .ki | 0x12 => some .kd | 0x13 => some .deadbandPct
  | 0x14 => some .satLow | 0x15 => some .satHigh | 0x16 => some .derivTau
  | 0x17 => some .integralMax | 0x18 => some .integralAccum | 0x19 => some .lastError
  | 0x1A => some .filtDeriv | 0x1B => some .lastTime | 0x1C => some .lastOutput
  | 0x1D => some .pidInit
  | 0x20 => some .rampSlice | 0x21 => some .rampCur | 0x22 => some .rampLast
  | 0x23 => some .rampFeed | 0x24 => some .rampTt | 0x25 => some .rampN
  | 0x26 => some .rampCount | 0x27 => some .rampRd | 0x28 => some .rampState
  | 0x29 => some .rampTermFeed
  | 0x30 => some .sp
  | _ => none

/-- The task of an index. -/
def taskAt (n : Nat) : Option TaskId := taskList[n]?

/-- The slots in the order of their numbers (R183). -/
def slotList : List Slot :=
  [.pos .A, .pos .B, .vel .A, .vel .B, .dt .A, .dt .B, .homeReq, .duty .A, .duty .B]

/-- The registers below 0x100 (R65). -/
def lowRegAt (n : Nat) : Option Reg :=
  match n with
  | 0x000 => some .ctrl
  | 0x001 => some .flags
  | 0x002 => some .schedTime
  | 0x003 => some .params
  | 0x040 => some .kinCurX
  | 0x041 => some .kinCurY
  | 0x042 => some .kinCurF
  | 0x044 => some .kinLastX
  | 0x045 => some .kinLastY
  | 0x046 => some .kinLastF
  | 0x080 => some .fifoCount
  | _ =>
    if 0x008 ≤ n ∧ n < 0x010 then (taskAt (n - 0x008)).map .period
    else if 0x010 ≤ n ∧ n < 0x018 then (taskAt (n - 0x010)).map .wake
    else if 0x018 ≤ n ∧ n < 0x020 then (taskAt (n - 0x018)).map .tstat
    else if 0x060 ≤ n ∧ n < 0x072 then
      (slotList[(n - 0x060) / 2]?).map (if n % 2 = 0 then .slotVal else .slotValid)
    else none

/-- The register at a word address, none where it is unmapped (R65). The waypoint buffers have
`RAMP_CAP` words each (R37). -/
def regAt (p : Params) (addr : RegAddr) : Option Reg :=
  let n := addr.toNat
  if n < 0x100 then lowRegAt n
  else if n < 0x180 then (axisRegAt (n - 0x100)).map (.axis .A)
  else if n < 0x200 then (axisRegAt (n - 0x180)).map (.axis .B)
  else if n < 0x400 then none
  else if n < 0x500 then
    (if n - 0x400 < p.rampCap then some (.rampBuf .A (BitVec.ofNat 8 (n - 0x400))) else none)
  else if n < 0x600 then
    (if n - 0x500 < p.rampCap then some (.rampBuf .B (BitVec.ofNat 8 (n - 0x500))) else none)
  else none

/-- `CTRL`: bit 0 `SCHED_EN`, bit 1 `FAULT`, the rest 0 (R24). -/
def ctrlWord (s : State) : Word :=
  boolWord s.schedEn ||| (boolWord s.fault <<< 1)

/-- `PARAMS`: bits 7:0 the FIFO depth, 16:8 the ramp capacity, bit 24 the full policy (R26). -/
def paramsWord (p : Params) : Word :=
  (BitVec.ofNat 8 p.cmdFifoDepth).setWidth 32 |||
  ((BitVec.ofNat 9 p.rampCap).setWidth 32 <<< 8) |||
  (match p.fullPolicy with
   | .reject => 0#32
   | .dropOldest => 0x01000000#32)

/-- `TSTAT[t]`: bit 0 `READY[t]`, bits 15:8 `tstep[t]`, the rest 0 (R28). -/
def tstatWord (r : TaskRegs) : Word :=
  boolWord r.ready ||| (r.tstep.setWidth 32 <<< 8)

/-- What a register of an axis block reads as. -/
def readAxisReg (r : AxisRegs) : AxisReg → Word
  | .encRaw => u16Word r.enc.raw
  | .encLastRaw => u16Word r.enc.lastRaw
  | .encAbs => r.enc.abs
  | .encLastDelta => r.enc.lastDelta
  | .encOvfBound => r.enc.ovfBound
  | .encInverted => boolWord r.enc.inverted
  | .encTpr => r.enc.tpr
  | .encMmpr => r.enc.mmpr
  | .swCount => u16Word r.sw.count
  | .swLast => u16Word r.sw.last
  | .kp => r.pid.kp
  | .ki => r.pid.ki
  | .kd => r.pid.kd
  | .deadbandPct => r.pid.deadbandPct
  | .satLow => r.pid.satLow
  | .satHigh => r.pid.satHigh
  | .derivTau => r.pid.derivTau
  | .integralMax => r.pid.integralMax
  | .integralAccum => r.pid.integralAccum
  | .lastError => r.pid.lastError
  | .filtDeriv => r.pid.filtDeriv
  | .lastTime => r.pid.lastTime
  | .lastOutput => r.pid.lastOutput
  | .pidInit => boolWord r.pid.pidInit
  | .rampSlice => r.ramp.slice
  | .rampCur => r.ramp.cur
  | .rampLast => r.ramp.last
  | .rampFeed => r.ramp.feed
  | .rampTt => r.ramp.tt
  | .rampN => r.ramp.n
  | .rampCount => r.ramp.count
  | .rampRd => r.ramp.rd
  | .rampState => rampStateWord r.ramp.state
  | .rampTermFeed => r.ramp.termFeed
  | .sp => r.sp

/-- `MemRead`: what a register reads as, with no side effect (spec/20_memory.md R61, R64). -/
def readReg (s : State) : Reg → Word
  | .ctrl => ctrlWord s
  | .flags => s.flags.setWidth 32
  | .schedTime => s.schedTime
  | .params => paramsWord s.params
  | .period t => (s.task t).period
  | .wake t => (s.task t).wake
  | .tstat t => tstatWord (s.task t)
  | .kinCurX => s.kin.curX
  | .kinCurY => s.kin.curY
  | .kinCurF => s.kin.curF
  | .kinLastX => s.kin.lastX
  | .kinLastY => s.kin.lastY
  | .kinLastF => s.kin.lastF
  | .slotVal k => (s.slot k).val
  | .slotValid k => boolWord (s.slot k).valid
  | .fifoCount => u32Word s.fifo.length
  | .axis a r => readAxisReg (s.axis a) r
  | .rampBuf a i => bufRead (s.axis a).ramp.buf i.toNat

/-- The configuration registers of an axis, exactly these thirteen (R38). -/
def axisRegIsCfg : AxisReg → Bool
  | .encOvfBound | .encInverted | .encTpr | .encMmpr | .kp | .ki | .kd | .deadbandPct | .satLow
  | .satHigh | .derivTau | .integralMax | .rampSlice => true
  | .encRaw | .encLastRaw | .encAbs | .encLastDelta | .swCount | .swLast | .integralAccum
  | .lastError | .filtDeriv | .lastTime | .lastOutput | .pidInit | .rampCur | .rampLast | .rampFeed
  | .rampTt | .rampN | .rampCount | .rampRd | .rampState | .rampTermFeed | .sp => false

/-- The access class of a register (R23, R38; spec/46_sys_cfg.md R238). -/
def regClass : Reg → RegClass
  | .flags => .w1c
  | .period _ => .cfg
  | .axis _ r => if axisRegIsCfg r then .cfg else .ro
  | .ctrl | .schedTime | .params | .wake _ | .tstat _ | .kinCurX | .kinCurY | .kinCurF | .kinLastX
  | .kinLastY | .kinLastF | .slotVal _ | .slotValid _ | .fifoCount | .rampBuf _ _ => .ro

/-- `MemWrite` of a configuration register of an axis block: the word as given, but `ENC_INVERTED` keeps
bit 0 only (R237). The other registers are never written so. -/
def writeAxisReg (r : AxisRegs) (which : AxisReg) (v : Word) : AxisRegs :=
  match which with
  | .encOvfBound => { r with enc := { r.enc with ovfBound := v } }
  | .encInverted => { r with enc := { r.enc with inverted := argBool v } }
  | .encTpr => { r with enc := { r.enc with tpr := v } }
  | .encMmpr => { r with enc := { r.enc with mmpr := v } }
  | .kp => { r with pid := { r.pid with kp := v } }
  | .ki => { r with pid := { r.pid with ki := v } }
  | .kd => { r with pid := { r.pid with kd := v } }
  | .deadbandPct => { r with pid := { r.pid with deadbandPct := v } }
  | .satLow => { r with pid := { r.pid with satLow := v } }
  | .satHigh => { r with pid := { r.pid with satHigh := v } }
  | .derivTau => { r with pid := { r.pid with derivTau := v } }
  | .integralMax => { r with pid := { r.pid with integralMax := v } }
  | .rampSlice => { r with ramp := { r.ramp with slice := v } }
  | .encRaw | .encLastRaw | .encAbs | .encLastDelta | .swCount | .swLast | .integralAccum
  | .lastError | .filtDeriv | .lastTime | .lastOutput | .pidInit | .rampCur | .rampLast | .rampFeed
  | .rampTt | .rampN | .rampCount | .rampRd | .rampState | .rampTermFeed | .sp => r

/-- `MemWrite` of a configuration register (R237). -/
def writeCfgReg (s : State) (r : Reg) (v : Word) : State :=
  match r with
  | .period t => s.setTask t { s.task t with period := v }
  | .axis a which => s.setAxis a (writeAxisReg (s.axis a) which v)
  | .ctrl | .flags | .schedTime | .params | .wake _ | .tstat _ | .kinCurX | .kinCurY | .kinCurF
  | .kinLastX | .kinLastY | .kinLastF | .slotVal _ | .slotValid _ | .fifoCount | .rampBuf _ _ => s

end Sys2Proof.Machine
end

