-- ==== Sys2Proof/Machine/Cfg.lean ====
section
/-! DEFINITION. The register access operations (spec/46_sys_cfg.md R236 to R238). -/

namespace Sys2Proof.Machine

open Sys2Proof Host

/-- The rule of `CFG.RD` (R236): allowed in both modes for every address, no side effect. -/
def cfgRd (addr : RegAddr) (s : State) : State :=
  match regAt s.params addr with
  | none => s.rejectIllegal
  | some r => s.respond .ok { w0 := readReg s r }

/-- `CFG.RD` (R236). -/
def execCfgRd (addr : RegAddr) (s : State) : Outcome State Fault Refusal := .next (cfgRd addr s)

/-- The rule of `CFG.WR` (R237). -/
def cfgWr (addr : RegAddr) (s : State) : State :=
  match regAt s.params addr with
  | none => s.rejectIllegal
  | some r =>
    match regClass r with
    | .w1c => (s.setFlags (clearFlagBits s.flags s.op.args.w0)).respond .ok {}
    | .ro => s.rejectDenied
    | .cfg => (writeCfgReg s r s.op.args.w0).respond .ok {}

/-- `CFG.WR` (R237): in run mode the host may write `FLAGS` (0x001) only, and the mode check comes before
the address check (R260, R253). -/
def execCfgWr (addr : RegAddr) (s : State) : Outcome State Fault Refusal :=
  .next (if addr = 0x001 then cfgWr addr s else s.ownerOnly (cfgWr addr))

end Sys2Proof.Machine
end

