-- ==== Sys2Proof/Machine/Encoder.lean ====
section
/-! DEFINITION. The encoder estimator and stopwatch operations (spec/40_encoder.md R100 to R106, R110).
In run mode only task `ENC_a` issues them (spec/60_exceptions.md R260). -/

namespace Sys2Proof.Machine

open Sys2Proof Host

/-- The wrap correction of R101: strict bound test, positive deltas corrected downward. -/
def wrapCorrect (delta bound : Int) : Int :=
  if bound < (delta.natAbs : Int) then (if 0 ≤ delta then delta - 65536 else delta + 65536)
  else delta

/-- The delta an `ENC.READ` accepts (R101): 16-bit subtraction, sign extension, correction, inversion. -/
def acceptedDelta (e : EncRegs) (raw : Half) : Int :=
  let delta := wrapCorrect (sext16 (raw - e.lastRaw)) (i32Val e.ovfBound)
  if e.inverted then -delta else delta

/-- The encoder registers after a sample `raw` (R101). -/
def encSampled (e : EncRegs) (raw : Half) : EncRegs :=
  { e with
    abs := wrapI32 (i32Val e.abs + acceptedDelta e raw)
    lastDelta := wrapI32 (acceptedDelta e raw)
    raw := raw
    lastRaw := raw }

/-- The rule of `ENC.READ` (R101). -/
def encRead (a : Axis) (s : State) : State :=
  let s' := s.mapEnc a (fun e => encSampled e (s.portEnc a))
  s'.respond .ok { w0 := (s'.axis a).enc.abs }

/-- `ENC.READ` (R101). -/
def execEncRead (a : Axis) (s : State) : Outcome State Fault Refusal :=
  .next (s.ownerOnly (encRead a))

/-- `ENC.ZERO` (R102): `ENC_ABS` to 0, the counter not sampled. -/
def execEncZero (a : Axis) (s : State) : Outcome State Fault Refusal :=
  .next (s.ownerOnly fun s => (s.mapEnc a (fun e => { e with abs := 0 })).respond .ok {})

/-- The unit conversion of R103, nested left to right. -/
def ticksToMm (e : EncRegs) (ticks : Word) : Word :=
  Num.fmul (Num.fdiv (Num.i2f (i32Val ticks)) e.tpr) e.mmpr

/-- `ENC.POS` (R103): no state is written. -/
def execEncPos (a : Axis) (s : State) : Outcome State Fault Refusal :=
  .next (s.ownerOnly fun s =>
    s.respond .ok { w0 := ticksToMm (s.axis a).enc (s.axis a).enc.abs })

/-- `ENC.DPOS` (R104): the same conversion of the delta of the latest sample. -/
def execEncDpos (a : Axis) (s : State) : Outcome State Fault Refusal :=
  .next (s.ownerOnly fun s =>
    s.respond .ok { w0 := ticksToMm (s.axis a).enc (s.axis a).enc.lastDelta })

/-- `SW.RESTART` (R105): zeroes the registers, neither samples nor clears the counter. -/
def execSwRestart (a : Axis) (s : State) : Outcome State Fault Refusal :=
  .next (s.ownerOnly fun s =>
    (s.mapSw a (fun r => { r with last := 0, count := 0 })).respond .ok {})

/-- The rule of `SW.LAP` (R106): the elapsed count modulo 2^16, and the rebase. -/
def swLap (a : Axis) (s : State) : State :=
  let c := s.portSw a
  let e := c - (s.axis a).sw.last
  (s.mapSw a (fun r => { r with count := c, last := c })).respond .ok { w0 := u16Word e }

/-- `SW.LAP` (R106). -/
def execSwLap (a : Axis) (s : State) : Outcome State Fault Refusal :=
  .next (s.ownerOnly (swLap a))

/-- The velocity of R110, from a position change in mm and a lap in µs, the lap not 0. -/
def velocity (dpos lap : Word) : Word := Num.fdiv dpos (Num.fdiv (Num.i2f lap.toNat) millionF)

end Sys2Proof.Machine
end

