-- ==== Sys2Proof/Machine/Kinematics.lean ====
section
/-! DEFINITION. The CoreXY kinematics operations (spec/41_kinematics.md R120 to R125). `KIN.FWD` and
`KIN.INV` are open to the host in either mode, the rest in configuration mode only
(spec/60_exceptions.md R260). -/

namespace Sys2Proof.Machine

open Sys2Proof Host

/-- `A = X - Y` (R120). -/
def fwdA (x y : Word) : Word := Num.fsub x y

/-- `B = -X - Y` (R120). -/
def fwdB (x y : Word) : Word := Num.fsub (Num.fneg x) y

/-- `X = (A - B) / 2` (R120). -/
def invX (a b : Word) : Word := Num.fdiv (Num.fsub a b) twoF

/-- `Y = -(A + B) / 2` (R120). -/
def invY (a b : Word) : Word := Num.fneg (Num.fdiv (Num.fadd a b) twoF)

/-- The forward map onto one axis (R120). -/
def fwdAxis (a : Axis) (x y : Word) : Word :=
  match a with
  | .A => fwdA x y
  | .B => fwdB x y

/-- The rule of `KIN.UPDATE` (R121): current rotates to last, then the arguments are stored unchecked. -/
def kinUpdate (s : State) : State :=
  (s.setKin
    { curX := s.op.args.w0, curY := s.op.args.w1, curF := s.op.args.w2
      lastX := s.kin.curX, lastY := s.kin.curY, lastF := s.kin.curF }).respond .ok {}

/-- `KIN.UPDATE` (R121). -/
def execKinUpdate (s : State) : Outcome State Fault Refusal := .next (s.ownerOnly kinUpdate)

/-- `KIN.RESET` (R122): all six registers +0.0. -/
def execKinReset (s : State) : Outcome State Fault Refusal :=
  .next (s.ownerOnly fun s => (s.setKin {}).respond .ok {})

/-- `KIN.FWD` (R123): pure. -/
def execKinFwd (s : State) : Outcome State Fault Refusal :=
  .next (s.respond .ok { w0 := fwdA s.op.args.w0 s.op.args.w1, w1 := fwdB s.op.args.w0 s.op.args.w1 })

/-- `KIN.INV` (R124): pure. -/
def execKinInv (s : State) : Outcome State Fault Refusal :=
  .next (s.respond .ok { w0 := invX s.op.args.w0 s.op.args.w1, w1 := invY s.op.args.w0 s.op.args.w1 })

/-- The path length between the last and the current command (R125). -/
def pathLen (k : KinRegs) : Word :=
  let dx := Num.fsub k.curX k.lastX
  let dy := Num.fsub k.curY k.lastY
  Num.fsqrt (Num.fadd (Num.fmul dx dx) (Num.fmul dy dy))

/-- The guard of R125: zero path length or zero feed, no segment exists. -/
def noSegment (k : KinRegs) : Bool := Num.feq (pathLen k) zeroF || Num.feq k.curF zeroF

/-- The last motor setpoint, the current one and the feed of an axis (R125). -/
def segment (k : KinRegs) (a : Axis) : Words5 :=
  let mLast := fwdAxis a k.lastX k.lastY
  let mCur := fwdAxis a k.curX k.curY
  let dm := Num.fsub mCur mLast
  { w0 := mLast, w1 := mCur, w2 := Num.fdiv (Num.fmul k.curF (Num.fabs dm)) (pathLen k) }

/-- The rule of `KIN.SEG` (R125). -/
def kinSeg (a : Axis) (s : State) : State :=
  if noSegment s.kin then s.reject .noMotion (some (.noMotion a))
  else s.respond .ok (segment s.kin a)

/-- `KIN.SEG` (R125). -/
def execKinSeg (a : Axis) (s : State) : Outcome State Fault Refusal :=
  .next (s.ownerOnly (kinSeg a))

end Sys2Proof.Machine
end

