-- ==== Sys2Proof/Machine/Motor.lean ====
section
/-! DEFINITION. The motor output operation (spec/45_sched_tasks.md R218). -/

namespace Sys2Proof.Machine

open Sys2Proof Host

/-- The rule of `MOT.OUT` (R218): the pattern is driven unchanged, with one strobe. -/
def motOut (a : Axis) (s : State) : State :=
  (s.driveDuty a s.op.args.w0).respond .ok {}

/-- `MOT.OUT` (R218): in run mode only task `MOT_a` issues it (spec/60_exceptions.md R260). -/
def execMotOut (a : Axis) (s : State) : Outcome State Fault Refusal :=
  .next (s.ownerOnly (motOut a))

end Sys2Proof.Machine
end

