-- ==== Sys2Proof/Machine/Pid.lean ====
section
/-! DEFINITION. The PID controller operations (spec/43_pid.md R160 to R164). In run mode only task `CTRL`
issues them (spec/60_exceptions.md R260). -/

namespace Sys2Proof.Machine

open Sys2Proof Host

/-- The sum of the three terms, nested left to right, clamped to the limits (R160). -/
def pidClamped (p : PidRegs) (error : Word) : Word :=
  Num.clamp
    (Num.fadd (Num.fadd (Num.fmul p.kp error) (Num.fmul p.ki p.integralAccum))
      (Num.fmul p.kd p.filtDeriv))
    p.satLow p.satHigh

/-- The output stage of R160: a non-zero output gets the deadband offset in its own direction and is
clamped again; a zero output is returned unchanged. -/
def pidStage (dbScale : Word) (p : PidRegs) (error : Word) : Word :=
  let u := pidClamped p error
  let off := Num.fmul p.deadbandPct dbScale
  if Num.fgt u zeroF then Num.clamp (Num.fadd u off) p.satLow p.satHigh
  else if Num.flt u zeroF then Num.clamp (Num.fsub u off) p.satLow p.satHigh
  else u

/-- The integral after a tick (R161): clamped to `[-INTEGRAL_MAX, INTEGRAL_MAX]`. -/
def pidIntegral (p : PidRegs) (error dt : Word) : Word :=
  Num.clamp (Num.fadd p.integralAccum (Num.fmul error dt)) (Num.fneg p.integralMax) p.integralMax

/-- The filtered derivative after a tick (R161). -/
def pidDerivative (p : PidRegs) (error dt : Word) : Word :=
  let rd := Num.fdiv (Num.fsub error p.lastError) dt
  let alpha := Num.fdiv dt (Num.fadd p.derivTau dt)
  Num.fadd p.filtDeriv (Num.fmul alpha (Num.fsub rd p.filtDeriv))

/-- What every accepted call latches: the error, the time, the output, the running state (R161, R162). -/
def pidLatch (p : PidRegs) (error now out : Word) : PidRegs :=
  { p with lastError := error, lastTime := now, lastOutput := out, pidInit := true }

/-- The registers after the running-state rule's integral and derivative updates (R161). -/
def pidUpdated (p : PidRegs) (error dt : Word) : PidRegs :=
  { p with integralAccum := pidIntegral p error dt, filtDeriv := pidDerivative p error dt }

/-- The rule of `PID.RUN` (R161): the first call (R162), the hold (R163), or the running-state update. -/
def pidRun (a : Axis) (s : State) : State :=
  let p := (s.axis a).pid
  let now := s.op.args.w2
  let error := Num.fsub s.op.args.w1 s.op.args.w0
  if !p.pidInit then
    let out := pidStage s.params.dbScale p error
    (s.mapPid a (fun p => pidLatch p error now out)).respond .ok { w0 := out }
  else
    let dt := Num.fsub now p.lastTime
    if !(Num.fgt dt zeroF) then
      (s.raise (.dtHold a)).respond .hold { w0 := p.lastOutput }
    else
      let p' := pidUpdated p error dt
      let out := pidStage s.params.dbScale p' error
      (s.mapPid a (fun _ => pidLatch p' error now out)).respond .ok { w0 := out }

/-- `PID.RUN` (R161 to R163). -/
def execPidRun (a : Axis) (s : State) : Outcome State Fault Refusal :=
  .next (s.ownerOnly (pidRun a))

/-- `PID.RESET` (R164): back to the initial state, the configuration untouched. -/
def execPidReset (a : Axis) (s : State) : Outcome State Fault Refusal :=
  .next (s.ownerOnly fun s => (s.mapPid a pidCleared).respond .ok {})

end Sys2Proof.Machine
end

