-- ==== Sys2Proof/Machine/Ramp.lean ====
section
/-! DEFINITION. The ramp generator operations (spec/42_ramp.md R140 to R146). In run mode only task
`CTRL` issues them (spec/60_exceptions.md R260). -/

namespace Sys2Proof.Machine

open Sys2Proof Host

/-- The rule of `RAMP.LOAD` (R141): the operands of a held segment are not replaced. -/
def rampLoad (a : Axis) (s : State) : State :=
  if (s.axis a).ramp.state ≠ .idle then s.reject .busy none
  else
    (s.mapRamp a (fun r =>
      { r with cur := s.op.args.w0, last := s.op.args.w1, feed := s.op.args.w2 })).respond .ok {}

/-- `RAMP.LOAD` (R141). -/
def execRampLoad (a : Axis) (s : State) : Outcome State Fault Refusal :=
  .next (s.ownerOnly (rampLoad a))

/-- The travel time of R142, none where a non-zero distance meets zero feed. -/
def travelTime (r : RampRegs) : Option Word :=
  if Num.feq r.cur r.last then some zeroF
  else if Num.feq r.feed zeroF then none
  else some (Num.fdiv (Num.fabs (Num.fsub r.cur r.last)) r.feed)

/-- The slice count `n` of R142. -/
def sliceCount (tt slice : Word) : Nat := Num.f2n (Num.fdiv tt slice)

/-- The number of waypoints of R142: 1 in the degenerate case, `n + 1` where the slices fill the travel
time exactly, `n + 2` otherwise. -/
def waypointCount (tt slice : Word) : Nat :=
  let n := sliceCount tt slice
  if Num.fle tt slice then 1
  else if Num.feq (Num.fmul (Num.i2f n) slice) tt then n + 1
  else n + 2

/-- The rule of `RAMP.INIT` (R142, R143). -/
def rampInit (a : Axis) (s : State) : State :=
  let r := (s.axis a).ramp
  if r.state ≠ .idle then s.reject .busy none
  else match travelTime r with
    | none => s.reject .noMotion (some (.noMotion a))
    | some tt =>
      let count := waypointCount tt r.slice
      if s.params.rampCap < count then s.reject .allocFault (some (.alloc a))
      else
        (s.mapRamp a (fun r =>
          { r with
            tt := tt
            n := u32Word (sliceCount tt r.slice)
            count := u32Word count
            rd := 0
            state := .allocated })).respond .ok { w0 := u32Word count }

/-- `RAMP.INIT` (R142). -/
def execRampInit (a : Axis) (s : State) : Outcome State Fault Refusal :=
  .next (s.ownerOnly (rampInit a))

/-- The interpolated waypoint `i` of R144, nested left to right. -/
def waypoint (r : RampRegs) (i : Nat) : Word :=
  let d := Num.fsub r.cur r.last
  Num.fadd r.last (Num.fdiv (Num.fmul (Num.fmul d (Num.i2f i)) r.slice) r.tt)

/-- The first `m` interpolated waypoints written to the buffer, `i = 0 .. m - 1` (R144). -/
def fillWaypoints (r : RampRegs) : Nat → RampBuf
  | 0 => r.buf
  | m + 1 => bufWrite (fillWaypoints r m) m (waypoint r m)

/-- The buffer after `RAMP.GEN` (R144): `count - 1` interpolated waypoints, then `current` exactly. -/
def generated (r : RampRegs) : RampBuf :=
  bufWrite (fillWaypoints r (r.count.toNat - 1)) (r.count.toNat - 1) r.cur

/-- The rule of `RAMP.GEN` (R144). -/
def rampGen (a : Axis) (s : State) : State :=
  match (s.axis a).ramp.state with
  | .idle => s.reject .notInit (some (.notInit a))
  | .ready => s.reject .busy none
  | .allocated =>
    (s.mapRamp a (fun r =>
      { r with buf := generated r, termFeed := r.feed, rd := 0, state := .ready })).respond .ok
        { w0 := (s.axis a).ramp.count }

/-- `RAMP.GEN` (R144). -/
def execRampGen (a : Axis) (s : State) : Outcome State Fault Refusal :=
  .next (s.ownerOnly (rampGen a))

/-- The rule of `RAMP.NEXT` (R145): waypoints in index order, each once. -/
def rampNext (a : Axis) (s : State) : State :=
  let r := (s.axis a).ramp
  if r.state ≠ .ready then s.reject .notInit (some (.notInit a))
  else if r.rd = r.count then s.reject .empty none
  else
    (s.mapRamp a (fun r => { r with rd := r.rd + 1 })).respond .ok
      { w0 := bufRead r.buf r.rd.toNat, w1 := r.count - (r.rd + 1) }

/-- `RAMP.NEXT` (R145). -/
def execRampNext (a : Axis) (s : State) : Outcome State Fault Refusal :=
  .next (s.ownerOnly (rampNext a))

/-- The rule of `RAMP.RELEASE` (R146): any state goes to `IDLE`; operands and buffer stay as they are. -/
def rampRelease (a : Axis) (s : State) : State :=
  (s.mapRamp a (fun r => { r with state := .idle, count := 0, rd := 0, n := 0 })).respond .ok {}

/-- `RAMP.RELEASE` (R146). -/
def execRampRelease (a : Axis) (s : State) : Outcome State Fault Refusal :=
  .next (s.ownerOnly (rampRelease a))

end Sys2Proof.Machine
end

