-- ==== Sys2Proof/Machine/SlotFifo.lean ====
section
/-! DEFINITION. The latest-value slots and the command FIFO (spec/44_slot_fifo.md R180 to R186). -/

namespace Sys2Proof.Machine

open Sys2Proof Host

/-- The rule of `SLOT.PUT` (R181). -/
def slotPut (k : Slot) (s : State) : State := (s.putSlot k s.op.args.w0).respond .ok {}

/-- `SLOT.PUT` (R181): in run mode the host may put to `HOME_REQ` only (spec/60_exceptions.md R260). -/
def execSlotPut (k : Slot) (s : State) : Outcome State Fault Refusal :=
  .next (if k = .homeReq then slotPut k s else s.ownerOnly (slotPut k))

/-- `SLOT.GET` (R182): in either mode, no state changes. -/
def execSlotGet (k : Slot) (s : State) : Outcome State Fault Refusal :=
  .next (s.respond .ok { w0 := (s.slot k).val, w1 := boolWord (s.slot k).valid })

/-- The entry the five arguments of `FIFO.PUT` make (R185; spec/10_state.md R45). -/
def commandOf (w : Words5) : Command :=
  { x := w.w0, y := w.w1, s := w.w2, f := w.w3, moveType := w.w4 }

/-- The rule of `FIFO.PUT` (R185). -/
def fifoPut (s : State) : State :=
  let e := commandOf s.op.args
  if s.fifo.length < s.params.cmdFifoDepth then
    (s.setFifo (s.fifo ++ [e])).respond .ok {}
  else match s.params.fullPolicy with
    | .reject => s.reject .full (some .fifoFull)
    | .dropOldest => ((s.raise .fifoFull).setFifo (s.fifo.tail ++ [e])).respond .ok {}

/-- `FIFO.PUT` (R185): open to the host in either mode (spec/60_exceptions.md R260). -/
def execFifoPut (s : State) : Outcome State Fault Refusal := .next (fifoPut s)

/-- The rule of `FIFO.GET` (R186): the oldest entry, removed. -/
def fifoGet (s : State) : State :=
  match s.fifo with
  | [] => s.reject .empty none
  | e :: rest =>
    (s.setFifo rest).respond .ok
      { w0 := e.x, w1 := e.y, w2 := e.s, w3 := e.f, w4 := e.moveType }

/-- `FIFO.GET` (R186): in run mode the control task is its only user (spec/60_exceptions.md R260). -/
def execFifoGet (s : State) : Outcome State Fault Refusal := .next (s.ownerOnly fifoGet)

end Sys2Proof.Machine
end

