-- ==== Sys2Proof/Machine/System.lean ====
section
/-! DEFINITION. NOP and the SYS operations (spec/46_sys_cfg.md R230 to R235). The host may issue all of
them in either mode (spec/60_exceptions.md R260). -/

namespace Sys2Proof.Machine

open Sys2Proof Host

/-- `NOP` (R230): no state change. -/
def execNop (s : State) : Outcome State Fault Refusal := .next (s.respond .ok {})

/-- `SYS.RESET` (R231): the reset of R281. -/
def execSysReset (s : State) : Outcome State Fault Refusal := .next (s.restart.respond .ok {})

/-- The release of every task at a start (R232; spec/45_sched_tasks.md R220). -/
def startTask (s : State) (t : TaskId) : State :=
  s.setTask t { s.task t with wake := (s.task t).period, ready := true, tstep := 0 }

/-- `SYS.START` refuses while a period is 0 or a generator is held `ALLOCATED` (R232). -/
def startRefused (s : State) : Bool :=
  taskList.any (fun t => (s.task t).period == 0) ||
  (s.axis .A).ramp.state == .allocated || (s.axis .B).ramp.state == .allocated

/-- The rule of `SYS.START` (R232). -/
def sysStart (s : State) : State :=
  if s.schedEn then s.respond .ok {}
  else if startRefused s then s.rejectDenied
  else ((taskList.foldl startTask (s.setTime 0)).setSchedEn true).respond .ok {}

/-- `SYS.START` (R232). -/
def execSysStart (s : State) : Outcome State Fault Refusal := .next (sysStart s)

/-- A task made not ready, its body abandoned (R233). -/
def stopTask (s : State) (t : TaskId) : State :=
  s.setTask t { s.task t with ready := false, tstep := 0 }

/-- `SYS.STOP` (R233): configuration mode, no task ready; all else keeps its value. -/
def execSysStop (s : State) : Outcome State Fault Refusal :=
  .next ((taskList.foldl stopTask (s.setSchedEn false)).respond .ok {})

/-- `SYS.FAULT` (R234): the only entry into the fault state. -/
def execSysFault (s : State) : Outcome State Fault Refusal := .next (s.enterFault.respond .ok {})

/-- `SYS.CLRFAULT` (R235): the exit from the fault state, both controllers reset. -/
def execSysClrfault (s : State) : Outcome State Fault Refusal := .next (s.leaveFault.respond .ok {})

end Sys2Proof.Machine
end

