-- ==== Sys2Proof/Machine/Dispatch.lean ====
section
/-! DEFINITION. The meaning of every operation, one arm each (spec/30_encoding.md R82). -/

namespace Sys2Proof.Machine

open Sys2Proof Host

/-- A transaction of a decoded operation: the agent and the arguments stand in `State.op`, and so do the
status and the results afterwards (spec/00_scope.md R10, spec/30_encoding.md R85 steps 2 and 3). -/
def exec (i : Instr) (s : State) : Host.Outcome State Fault Refusal :=
  match i with
  | .nop => Sys2Proof.Machine.execNop s
  | .sysReset => Sys2Proof.Machine.execSysReset s
  | .sysStart => Sys2Proof.Machine.execSysStart s
  | .sysStop => Sys2Proof.Machine.execSysStop s
  | .sysFault => Sys2Proof.Machine.execSysFault s
  | .sysClrfault => Sys2Proof.Machine.execSysClrfault s
  | .cfgRd addr => Sys2Proof.Machine.execCfgRd addr s
  | .cfgWr addr => Sys2Proof.Machine.execCfgWr addr s
  | .encRead a => Sys2Proof.Machine.execEncRead a s
  | .encZero a => Sys2Proof.Machine.execEncZero a s
  | .encPos a => Sys2Proof.Machine.execEncPos a s
  | .encDpos a => Sys2Proof.Machine.execEncDpos a s
  | .swRestart a => Sys2Proof.Machine.execSwRestart a s
  | .swLap a => Sys2Proof.Machine.execSwLap a s
  | .kinUpdate => Sys2Proof.Machine.execKinUpdate s
  | .kinReset => Sys2Proof.Machine.execKinReset s
  | .kinFwd => Sys2Proof.Machine.execKinFwd s
  | .kinInv => Sys2Proof.Machine.execKinInv s
  | .kinSeg a => Sys2Proof.Machine.execKinSeg a s
  | .rampLoad a => Sys2Proof.Machine.execRampLoad a s
  | .rampInit a => Sys2Proof.Machine.execRampInit a s
  | .rampGen a => Sys2Proof.Machine.execRampGen a s
  | .rampNext a => Sys2Proof.Machine.execRampNext a s
  | .rampRelease a => Sys2Proof.Machine.execRampRelease a s
  | .pidRun a => Sys2Proof.Machine.execPidRun a s
  | .pidReset a => Sys2Proof.Machine.execPidReset a s
  | .slotPut k => Sys2Proof.Machine.execSlotPut k s
  | .slotGet k => Sys2Proof.Machine.execSlotGet k s
  | .fifoPut => Sys2Proof.Machine.execFifoPut s
  | .fifoGet => Sys2Proof.Machine.execFifoGet s
  | .motOut a => Sys2Proof.Machine.execMotOut a s

end Sys2Proof.Machine
end

