-- ==== Sys2Proof/Machine/Tasks.lean ====
section
/-! DEFINITION. The hard-wired task bodies (spec/45_sched_tasks.md R207, R209, R217): for each step its
guard, its operation with the arguments, and its post-action. -/

namespace Sys2Proof.Machine

open Sys2Proof

/-- The operation a step issues, with its arguments (R203). -/
structure TaskOp where
  instr : Instr
  args  : Words5 := {}
  deriving DecidableEq, Repr

/-- A guarded step: the operation where the guard is true, none where it is false (R203). -/
def guarded (g : Bool) (i : Instr) (args : Words5 := {}) : Option TaskOp :=
  if g then some { instr := i, args := args } else none

/-- The value of a `SLOT.GET HOME_REQ` read as asserted: `res1 = 1` and `res0[0] = 1` (R207, R209). -/
def homeAsserted (r : Words5) : Bool := r.w1 == 1 && r.w0.getLsbD 0

/-- Step `k` of the body of `ENC_a` (R207). -/
def encStep (a : Axis) (s : State) (k : Nat) : Option TaskOp :=
  let T := (s.task (.enc a)).tmp
  match k with
  | 0 => guarded true (.slotGet .homeReq)
  | 1 => guarded true (.encRead a)
  | 2 => guarded (T.t0 == 1) (.encZero a)
  | 3 => guarded true (.swLap a)
  | 4 => guarded true (.encPos a)
  | 5 => guarded true (.slotPut (.pos a)) { w0 := T.t2 }
  | 6 => guarded true (.encDpos a)
  | 7 => guarded (T.t1 != 0) (.slotPut (.vel a)) { w0 := velocity T.t3 T.t1 }
  | 8 => guarded true (.slotPut (.dt a)) { w0 := T.t1 }
  | _ => none

/-- The post-action of step `k` of the body of `ENC_a` (R207). -/
def encPost (a : Axis) (k : Nat) (s : State) : State :=
  let r := s.op.res
  match k with
  | 0 => s.mapTmp (.enc a) fun T => { T with t0 := boolWord (homeAsserted r) }
  | 3 => s.mapTmp (.enc a) fun T => { T with t1 := r.w0 }
  | 4 => s.mapTmp (.enc a) fun T => { T with t2 := r.w0 }
  | 6 => s.mapTmp (.enc a) fun T => { T with t3 := r.w0 }
  | _ => s

/-- `FL` of R209: the fault latched at step 0. -/
def gFault (T : Temps) : Bool := T.t7 == 1

/-- `not FL and H` of R209: the home section. -/
def gHome (T : Temps) : Bool := !(gFault T) && T.t0 == 1

/-- `N` of R209: normal operation. -/
def gNormal (T : Temps) : Bool := T.t7 == 0 && T.t0 == 0

/-- `C` of R209: a command was fetched in this body. -/
def gCommand (T : Temps) : Bool := gNormal T && T.t4 == 1

/-- `ST(a)` of R209 compared with a state. -/
def gRamp (s : State) (a : Axis) (st : RampState) : Bool := (s.axis a).ramp.state == st

/-- Both generators `ALLOCATED` (R209 steps 18, 19). -/
def gBoth (s : State) : Bool := gRamp s .A .allocated && gRamp s .B .allocated

/-- The segment of an axis is drained: `RAMP_RD = RAMP_COUNT` (R209 steps 23, 25). -/
def gDrained (s : State) (a : Axis) : Bool := (s.axis a).ramp.rd == (s.axis a).ramp.count

/-- Step `k` of the body of `CTRL` (R209). -/
def ctrlStep (s : State) (k : Nat) : Option TaskOp :=
  let T := (s.task .ctrl).tmp
  match k with
  | 0 => guarded true (.slotGet .homeReq)
  | 1 => guarded (gFault T) (.slotPut (.duty .A)) { w0 := zeroF }
  | 2 => guarded (gFault T) (.slotPut (.duty .B)) { w0 := zeroF }
  | 3 => guarded (gHome T) (.pidReset .A)
  | 4 => guarded (gHome T) (.pidReset .B)
  | 5 => guarded (gHome T) .kinReset
  | 6 => guarded (gHome T) (.rampRelease .A)
  | 7 => guarded (gHome T) (.rampRelease .B)
  | 8 => guarded (gHome T) (.slotPut (.duty .A)) { w0 := zeroF }
  | 9 => guarded (gHome T) (.slotPut (.duty .B)) { w0 := zeroF }
  | 10 => guarded (gNormal T && gRamp s .A .idle && gRamp s .B .idle) .fifoGet
  | 11 => guarded (gCommand T) .kinUpdate { w0 := T.t1, w1 := T.t2, w2 := T.t3 }
  | 12 => guarded (gCommand T) (.kinSeg .A)
  | 13 => guarded (gCommand T && T.t5 == 1) (.rampLoad .A) { w0 := T.t2, w1 := T.t1, w2 := T.t3 }
  | 14 => guarded (gCommand T && T.t5 == 1) (.rampInit .A)
  | 15 => guarded (gCommand T) (.kinSeg .B)
  | 16 => guarded (gCommand T && T.t5 == 1) (.rampLoad .B) { w0 := T.t2, w1 := T.t1, w2 := T.t3 }
  | 17 => guarded (gCommand T && T.t5 == 1) (.rampInit .B)
  | 18 => guarded (gCommand T && !(gBoth s)) (.rampRelease .A)
  | 19 => guarded (gCommand T && !(gBoth s)) (.rampRelease .B)
  | 20 => guarded (gCommand T && gRamp s .A .allocated) (.rampGen .A)
  | 21 => guarded (gCommand T && gRamp s .B .allocated) (.rampGen .B)
  | 22 => guarded (gNormal T && gRamp s .A .ready) (.rampNext .A)
  | 23 => guarded (gNormal T && gRamp s .A .ready && gDrained s .A) (.rampRelease .A)
  | 24 => guarded (gNormal T && gRamp s .B .ready) (.rampNext .B)
  | 25 => guarded (gNormal T && gRamp s .B .ready && gDrained s .B) (.rampRelease .B)
  | 26 => guarded (gNormal T) (.slotGet (.pos .A))
  | 27 => guarded (gNormal T && T.t5 == 1) (.pidRun .A)
            { w0 := T.t1, w1 := (s.axis .A).sp, w2 := s.ports.tNow }
  | 28 => guarded (gNormal T && T.t5 == 1 && !s.fault) (.slotPut (.duty .A)) { w0 := T.t2 }
  | 29 => guarded (gNormal T) (.slotGet (.pos .B))
  | 30 => guarded (gNormal T && T.t5 == 1) (.pidRun .B)
            { w0 := T.t1, w1 := (s.axis .B).sp, w2 := s.ports.tNow }
  | 31 => guarded (gNormal T && T.t5 == 1 && !s.fault) (.slotPut (.duty .B)) { w0 := T.t2 }
  | _ => none

/-- The post-action of steps 12 and 15: the segment taken, or `T5` cleared (R209). -/
def segmentTaken (s : State) : State :=
  let r := s.op.res
  if s.op.status = .ok then
    s.mapTmp .ctrl fun T => { T with t1 := r.w0, t2 := r.w1, t3 := r.w2, t5 := 1 }
  else s.mapTmp .ctrl fun T => { T with t5 := 0 }

/-- The post-action of steps 22 and 24: the waypoint becomes the setpoint (R209, R215). -/
def waypointTaken (a : Axis) (s : State) : State :=
  if s.op.status = .ok then s.setSp a s.op.res.w0 else s

/-- The post-action of steps 26 and 29: the measured position and its validity (R209). -/
def positionTaken (s : State) : State :=
  let r := s.op.res
  s.mapTmp .ctrl fun T => { T with t1 := r.w0, t5 := r.w1 }

/-- The post-action of steps 27 and 30: the duty, for `OK` and for `HOLD` (R209, R216). -/
def dutyTaken (s : State) : State :=
  let r := s.op.res
  s.mapTmp .ctrl fun T => { T with t2 := r.w0 }

/-- The post-action of step `k` of the body of `CTRL` (R209). -/
def ctrlPost (k : Nat) (s : State) : State :=
  let r := s.op.res
  match k with
  | 0 => s.mapTmp .ctrl fun T =>
      { T with t0 := boolWord (homeAsserted r), t7 := boolWord s.fault, t4 := 0, t5 := 0 }
  | 6 => s.setSp .A zeroF
  | 7 => s.setSp .B zeroF
  | 10 =>
    if s.op.status = .ok then
      s.mapTmp .ctrl fun T => { T with t1 := r.w0, t2 := r.w1, t3 := r.w3, t4 := 1 }
    else s
  | 12 => segmentTaken s
  | 15 => segmentTaken s
  | 22 => waypointTaken .A s
  | 24 => waypointTaken .B s
  | 26 => positionTaken s
  | 27 => dutyTaken s
  | 29 => positionTaken s
  | 30 => dutyTaken s
  | _ => s

/-- Step `k` of the body of `MOT_a` (R217). -/
def motStep (a : Axis) (s : State) (k : Nat) : Option TaskOp :=
  let T := (s.task (.mot a)).tmp
  match k with
  | 0 => guarded true (.slotGet (.duty a))
  | 1 => guarded (T.t0 == 1) (.motOut a) { w0 := T.t1 }
  | _ => none

/-- The post-action of step `k` of the body of `MOT_a` (R217). -/
def motPost (a : Axis) (k : Nat) (s : State) : State :=
  let r := s.op.res
  match k with
  | 0 => s.mapTmp (.mot a) fun T => { T with t1 := r.w0, t0 := r.w1 }
  | _ => s

/-- Step `k` of a task's body: the operation it issues, none where its guard is false. An index outside
the body, which no run reaches, issues nothing (log 10). -/
def bodyStep (t : TaskId) (s : State) (k : Nat) : Option TaskOp :=
  match t with
  | .enc a => encStep a s k
  | .ctrl => ctrlStep s k
  | .mot a => motStep a s k

/-- The post-action of step `k` of a task's body. -/
def bodyPost (t : TaskId) (k : Nat) (s : State) : State :=
  match t with
  | .enc a => encPost a k s
  | .ctrl => ctrlPost k s
  | .mot a => motPost a k s

/-- The end of step `k` (R203): `tstep <- k + 1`, or, after the last step, not ready and `tstep <- 0`. -/
def finishStep (t : TaskId) (k : Nat) (s : State) : State :=
  if k + 1 = bodyLen t then s.setTask t { s.task t with ready := false, tstep := 0 }
  else s.setTask t { s.task t with tstep := BitVec.ofNat 8 (k + 1) }

end Sys2Proof.Machine
end

