-- ==== Sys2Proof/Machine/Events.lean ====
section
/-! DEFINITION. The atomic events of the block (spec/45_sched_tasks.md R201 to R205): reset, TICK, a host
transaction, a step of the running task; the environment's change of the input ports; and how the next
event is taken. -/

namespace Sys2Proof.Machine

open Sys2Proof Host

/-- One task at a TICK (R201, R205): released where `SCHED_TIME` has reached its `WAKE`, the release lost
and recorded where the task is still ready. -/
def tickTask (s : State) (t : TaskId) : State :=
  let r := s.task t
  if s.schedTime = r.wake then
    let s' := s.setTask t { r with wake := r.wake + r.period }
    if r.ready then s'.raise (.overrun t)
    else s'.setTask t { s'.task t with ready := true, tstep := 0 }
  else s

/-- The TICK event (R201); in configuration mode it changes nothing. -/
def tickEvent (s : State) : State :=
  if s.schedEn then taskList.foldl tickTask (s.setTime (s.schedTime + 1)) else s

/-- The running task (R202): in run mode the ready task of smallest index. -/
def runningTask (s : State) : Option TaskId :=
  if s.schedEn then taskList.find? (fun t => (s.task t).ready) else none

/-- The state in which a transaction of the host or of a task is executed. -/
def hostTransaction (opw : Word) (args : Words5) (s : State) : Outcome State Fault Refusal :=
  match decode opw with
  | .error _ => .next (s.issue .host args).rejectIllegal
  | .ok i => exec i (s.issue .host args)

/-- Step `k` of the running task `t` (R203): guard, operation, post-action and `tstep` in one event. -/
def taskTransaction (t : TaskId) (k : Nat) (s : State) : Outcome State Fault Refusal :=
  match bodyStep t s k with
  | none => .next (finishStep t k s)
  | some o =>
    match exec o.instr (s.issue (.task t) o.args) with
    | .next s' => .next (finishStep t k (bodyPost t k s'))
    | .fault r => .fault r
    | .refused r => .refused r

/-- The task step event (R203). It is enabled only where R202 names a running task; the model answers
the event offered where it is not enabled by changing nothing (log 5). -/
def taskStepEvent (s : State) : Outcome State Fault Refusal :=
  match runningTask s with
  | none => .next s
  | some t => taskTransaction t (s.task t).tstep.toNat s

/-- One event (R204). -/
def applyEvent (e : Event) (s : State) : Outcome State Fault Refusal :=
  match e with
  | .reset => .next s.restart
  | .tick => .next (tickEvent s)
  | .host opw args => hostTransaction opw args s
  | .taskStep => taskStepEvent s
  | .drive p => .next (s.setPorts p)

/-- The event taken next (log 4): the first pending one, or, where none is pending, the one the
environment offers at the next index. -/
def nextEvent (s : State) : Event :=
  match s.pending with
  | e :: _ => e
  | [] => Config.environment s.envIndex

/-- The state with the next event taken off, and the strobes of the previous event ended (log 8). -/
def takeEvent (s : State) : State :=
  let s' := match s.pending with
    | _ :: rest => s.setPending rest
    | [] => s.setEnvIndex (s.envIndex + 1)
  (s'.endStrobe .A).endStrobe .B

/-- One step of the machine: the next event, applied. -/
def stepEvent (s : State) : Outcome State Fault Refusal := applyEvent (nextEvent s) (takeEvent s)

/-- The word a number of `nbits` bits stands for. -/
def fetchWord (nbits w : Nat) : Word := BitVec.ofNat 32 (w % 2 ^ nbits)

/-- The host transaction of a word made the next event, with all argument words 0. -/
def offerWord (s : State) (nbits w : Nat) : State :=
  s.setPending (.host (fetchWord nbits w) {} :: s.pending)

end Sys2Proof.Machine
end

