-- ==== Sys2Proof/Machine/Step.lean ====
section
/-! DEFINITION. The step of the machine: one atomic event (spec/20_memory.md R66, R67). -/

namespace Sys2Proof.Machine

open Sys2Proof Host

/-- One step: the next event of the total order (R67; log 4). -/
def step (s : State) : Host.Outcome State Fault Refusal := Sys2Proof.Machine.stepEvent s

/-- The operation word placed where the next step takes it: as the next transaction of the host. The
block fetches nothing (R71); a program comes from outside, transaction by transaction (log 4). -/
def State.withFetchWord (s : State) (nbits w : Nat) : State := Sys2Proof.Machine.offerWord s nbits w

end Sys2Proof.Machine
end

