-- ==== Sys2Proof/Safety.lean ====
section
/-! DEFINITION. What a safe run is, in the terms the statements use: what a transaction may write and keeps
(frames), what it answers, the tables of rights, statuses and flags of spec/60_exceptions.md, who owns each
register (spec/10_state.md R49), and the invariants of the machine. -/

namespace Sys2Proof.Machine

open Sys2Proof Host

/-! ### The opcode table (spec/30_encoding.md R83) -/

/-- A row of spec/opcode_table.json: the bits a word must have, the mask of the bits that are fixed, and the
greatest selector the row's format admits. -/
structure OpcodeRow where
  bits   : Word
  mask   : Word
  maxSel : Nat
  deriving DecidableEq, Repr

/-- The 31 rows in the table's order. -/
def opcodeRows : List OpcodeRow := List.flatten
  [[⟨0x00000000, 0xFFFFFFFF, 0⟩, ⟨0x00000001, 0xFFFFFFFF, 0⟩, ⟨0x00000002, 0xFFFFFFFF, 0⟩,
   ⟨0x00000003, 0xFFFFFFFF, 0⟩, ⟨0x00000004, 0xFFFFFFFF, 0⟩, ⟨0x00000005, 0xFFFFFFFF, 0⟩],
   [⟨0x00000008, 0xFF000FFF, 0⟩, ⟨0x00000009, 0xFF000FFF, 0⟩],
   [⟨0x00000010, 0xFFFFFEFF, 1⟩, ⟨0x00000011, 0xFFFFFEFF, 1⟩, ⟨0x00000012, 0xFFFFFEFF, 1⟩,
   ⟨0x00000013, 0xFFFFFEFF, 1⟩, ⟨0x00000018, 0xFFFFFEFF, 1⟩, ⟨0x00000019, 0xFFFFFEFF, 1⟩],
   [⟨0x00000020, 0xFFFFFFFF, 0⟩, ⟨0x00000021, 0xFFFFFFFF, 0⟩, ⟨0x00000022, 0xFFFFFFFF, 0⟩,
   ⟨0x00000023, 0xFFFFFFFF, 0⟩, ⟨0x00000024, 0xFFFFFEFF, 1⟩],
   [⟨0x00000030, 0xFFFFFEFF, 1⟩, ⟨0x00000031, 0xFFFFFEFF, 1⟩, ⟨0x00000032, 0xFFFFFEFF, 1⟩,
   ⟨0x00000033, 0xFFFFFEFF, 1⟩, ⟨0x00000034, 0xFFFFFEFF, 1⟩],
   [⟨0x00000040, 0xFFFFFEFF, 1⟩, ⟨0x00000041, 0xFFFFFEFF, 1⟩, ⟨0x00000050, 0xFFFFF0FF, 8⟩,
   ⟨0x00000051, 0xFFFFF0FF, 8⟩],
   [⟨0x00000060, 0xFFFFFFFF, 0⟩, ⟨0x00000061, 0xFFFFFFFF, 0⟩, ⟨0x00000070, 0xFFFFFEFF, 1⟩]]

/-- A word spells a row's operation (R83). -/
def OpcodeRow.spelledBy (r : OpcodeRow) (w : Word) : Bool :=
  w &&& r.mask == r.bits && decide ((w.extractLsb' 8 4).toNat ≤ r.maxSel)

/-! ### Frames and answers -/

/-- What a transaction may write. The operation port is not listed: arguments, status and results live for
one transaction (spec/00_scope.md R10). -/
structure Writes where
  reg  : List Reg := []
  flag : List Flag := []
  tmp  : List TaskId := []
  fifo : Bool := false
  duty : List Axis := []

/-- `t` is `s` but for what `w` lists: every mapped register, waypoint words among them, through `MemRead`
(spec/20_memory.md R61); every bit of `FLAGS`; the temporaries; the FIFO's entries; the output ports; the
parameters; and what the environment drives and offers. -/
structure Frame (w : Writes) (s t : State) : Prop where
  reg      : ∀ r, r ≠ .flags → r ∉ w.reg → readReg t r = readReg s r
  flag     : ∀ n, (∀ g ∈ w.flag, flagBit g ≠ n) → t.flags.getLsbD n = s.flags.getLsbD n
  tmp      : ∀ u, u ∉ w.tmp → (t.task u).tmp = (s.task u).tmp
  fifo     : w.fifo = false → t.fifo = s.fifo
  duty     : ∀ a, a ∉ w.duty →
    (t.axis a).dutyOut = (s.axis a).dutyOut ∧ (t.axis a).dutyStb = (s.axis a).dutyStb
  params   : t.params = s.params
  ports    : t.ports = s.ports
  pending  : t.pending = s.pending
  envIndex : t.envIndex = s.envIndex

/-- The response of the transaction that led to `t` (R10). -/
def Answers (t : State) (st : Status) (r : Words5) : Prop := t.op.status = st ∧ t.op.res = r

/-- All the flags (spec/10_state.md R22). -/
def allFlags : List Flag := List.flatten
  [[.noMotion .A, .noMotion .B, .alloc .A, .alloc .B, .notInit .A, .notInit .B, .dtHold .A, .dtHold .B],
   taskList.map .overrun, [.fifoFull, .denied, .illegal]]

/-- The registers that hold a controller's state, which `PID.RESET` writes (spec/43_pid.md R164). -/
def pidStateRegs (a : Axis) : List Reg :=
  [.axis a .integralAccum, .axis a .lastError, .axis a .filtDeriv, .axis a .lastTime, .axis a .lastOutput,
   .axis a .pidInit]

/-- The Kinematics registers (spec/10_state.md R30). -/
def kinematicsRegs : List Reg := [.kinCurX, .kinCurY, .kinCurF, .kinLastX, .kinLastY, .kinLastF]

/-- The registers of an axis that the home section of `CTRL` zeroes (spec/45_sched_tasks.md R209 steps 3, 4,
6, 7). -/
def homedRegs (a : Axis) : List Reg :=
  .axis a .rampState :: .axis a .rampCount :: .axis a .rampRd :: .axis a .rampN :: .axis a .sp ::
    pidStateRegs a

/-- The two registers of a slot. -/
def slotRegs (k : Slot) : List Reg := [.slotVal k, .slotValid k]

/-- The sticky flag of a refusal is set and nothing else changed (spec/60_exceptions.md R252, R254). -/
def Rejects (s t : State) (st : Status) (g : Flag) : Prop :=
  Answers t st {} ∧ t.flag g = true ∧ Frame { flag := [g] } s t

/-! ### The tables of spec/60_exceptions.md -/

/-- What the host may issue in run mode (R260). -/
def hostMayInRun : Instr → Bool
  | .nop | .sysReset | .sysStart | .sysStop | .sysFault | .sysClrfault => true
  | .cfgRd _ => true
  | .cfgWr addr => addr == 0x001
  | .slotGet _ => true
  | .slotPut k => k == .homeReq
  | .fifoPut => true
  | .kinFwd | .kinInv => true
  | .fifoGet => false
  | .kinUpdate | .kinReset | .kinSeg _ => false
  | .rampLoad _ | .rampInit _ | .rampGen _ | .rampNext _ | .rampRelease _ => false
  | .pidRun _ | .pidReset _ => false
  | .encRead _ | .encZero _ | .encPos _ | .encDpos _ | .swRestart _ | .swLap _ => false
  | .motOut _ => false

/-- The statuses besides `OK` of an operation's own rule (R251). -/
def statusesBesidesOk : Instr → List Status
  | .sysStart => [.denied]
  | .cfgRd _ => [.illegal]
  | .cfgWr _ => [.illegal, .denied]
  | .kinSeg _ => [.noMotion]
  | .rampLoad _ => [.busy]
  | .rampInit _ => [.busy, .noMotion, .allocFault]
  | .rampGen _ => [.notInit, .busy]
  | .rampNext _ => [.notInit, .empty]
  | .pidRun _ => [.hold]
  | .fifoPut => [.full]
  | .fifoGet => [.empty]
  | .nop | .sysReset | .sysStop | .sysFault | .sysClrfault => []
  | .encRead _ | .encZero _ | .encPos _ | .encDpos _ | .swRestart _ | .swLap _ => []
  | .kinUpdate | .kinReset | .kinFwd | .kinInv => []
  | .rampRelease _ | .pidReset _ | .slotPut _ | .slotGet _ | .motOut _ => []

/-- The axis of an operation of format A (spec/30_encoding.md R81). -/
def axisOf : Instr → Option Axis
  | .encRead a | .encZero a | .encPos a | .encDpos a | .swRestart a | .swLap a | .kinSeg a
  | .rampLoad a | .rampInit a | .rampGen a | .rampNext a | .rampRelease a | .pidRun a | .pidReset a
  | .motOut a => some a
  | .nop | .sysReset | .sysStart | .sysStop | .sysFault | .sysClrfault | .cfgRd _ | .cfgWr _
  | .kinUpdate | .kinReset | .kinFwd | .kinInv | .slotPut _ | .slotGet _ | .fifoPut | .fifoGet => none

/-- The flag that records a status (R252; spec/10_state.md R22): by axis for the faults of an axis's
operation; nothing for `OK`, `EMPTY`, `BUSY`. -/
def recordedFlag (i : Instr) : Status → Option Flag
  | .noMotion => (axisOf i).map .noMotion
  | .allocFault => (axisOf i).map .alloc
  | .notInit => (axisOf i).map .notInit
  | .hold => (axisOf i).map .dtHold
  | .full => some .fifoFull
  | .denied => some .denied
  | .illegal => some .illegal
  | .ok | .empty | .busy => none

/-! ### Ownership in run mode (spec/10_state.md R49, R206) -/

/-- The registers of an axis block a step of a task may change: the encoder and stopwatch registers belong
to `ENC_a`, the controller, ramp and setpoint registers to `CTRL`; a configuration register to no task. -/
def ownsAxisReg (u : TaskId) (a : Axis) (r : AxisReg) : Bool :=
  !(axisRegIsCfg r) &&
  match r with
  | .encRaw | .encLastRaw | .encAbs | .encLastDelta | .encOvfBound | .encInverted | .encTpr | .encMmpr
  | .swCount | .swLast => u == .enc a
  | .kp | .ki | .kd | .deadbandPct | .satLow | .satHigh | .derivTau | .integralMax | .integralAccum
  | .lastError | .filtDeriv | .lastTime | .lastOutput | .pidInit | .rampSlice | .rampCur | .rampLast
  | .rampFeed | .rampTt | .rampN | .rampCount | .rampRd | .rampState | .rampTermFeed | .sp => u == .ctrl

/-- The slots a task puts to in run mode (spec/44_slot_fifo.md R183). -/
def putsSlot (u : TaskId) : Slot → Bool
  | .pos a | .vel a | .dt a => u == .enc a
  | .homeReq => false
  | .duty _ => u == .ctrl

/-- The registers a step of a task may change. -/
def ownsReg (u : TaskId) : Reg → Bool
  | .kinCurX | .kinCurY | .kinCurF | .kinLastX | .kinLastY | .kinLastF => u == .ctrl
  | .slotVal k | .slotValid k => putsSlot u k
  | .fifoCount => u == .ctrl
  | .axis a r => ownsAxisReg u a r
  | .rampBuf _ _ => u == .ctrl
  | .tstat v => u == v
  | .flags => true
  | .ctrl | .schedTime | .params | .period _ | .wake _ => false

/-! ### Invariants -/

/-- After any sample the two counter registers of an encoder agree (spec/10_state.md R47 (a), R31). -/
def encOk (e : EncRegs) : Bool := e.lastRaw == e.raw

/-- The two registers of a stopwatch agree (spec/40_encoder.md R105, R106). -/
def swOk (r : SwRegs) : Bool := r.last == r.count

/-- In the "initial" state every accumulator is at zero (spec/43_pid.md R162). -/
def pidOk (p : PidRegs) : Bool :=
  p.pidInit ||
  (p.integralAccum == zeroF && p.lastError == zeroF && p.filtDeriv == zeroF && p.lastTime == zeroF &&
    p.lastOutput == zeroF)

/-- `IDLE` iff the count is 0; when not idle `1 ≤ count ≤ RAMP_CAP` and `rd ≤ count` (R47 (b)); nothing is
drained before it is generated; the buffer keeps its canonical form. -/
def rampOk (cap : Nat) (r : RampRegs) : Bool :=
  bufWf cap r.buf &&
  match r.state with
  | .idle => r.count == 0 && r.rd == 0 && r.n == 0
  | .allocated => decide (1 ≤ r.count.toNat) && decide (r.count.toNat ≤ cap) && r.rd == 0
  | .ready =>
    decide (1 ≤ r.count.toNat) && decide (r.count.toNat ≤ cap) && decide (r.rd.toNat ≤ r.count.toNat)

/-- The invariants of one axis. -/
def axisOk (cap : Nat) (r : AxisRegs) : Bool := encOk r.enc && swOk r.sw && pidOk r.pid && rampOk cap r.ramp

/-- The step index stays inside the body, and is 0 for a task that is not ready (R21, R203). -/
def taskOk (t : TaskId) (r : TaskRegs) : Bool :=
  decide (r.tstep.toNat < bodyLen t) && (r.ready || r.tstep == 0)

/-- A slot that is "none" holds 0, and `HOME_REQ` holds a bool (spec/44_slot_fifo.md R181, R182). -/
def slotOk (k : Slot) (c : SlotCell) : Bool :=
  (c.valid || c.val == 0) && slotStored k c.val == c.val

/-- In configuration mode no task is ready (spec/60_exceptions.md R259); in run mode every period is at
least 1 and every release lies between 1 and one period ahead (spec/45_sched_tasks.md R201). -/
def modeOk (s : State) : Bool :=
  if s.schedEn then
    taskList.all fun t =>
      decide (1 ≤ ((s.task t).wake - s.schedTime).toNat) &&
      decide (((s.task t).wake - s.schedTime).toNat ≤ (s.task t).period.toNat)
  else taskList.all fun t => !(s.task t).ready

/-- The invariant of the machine. -/
def State.invariant (s : State) : Bool :=
  s.params.wellFormed && axisOk s.params.rampCap s.axisA && axisOk s.params.rampCap s.axisB &&
  (taskList.all fun t => taskOk t (s.task t)) && (slotList.all fun k => slotOk k (s.slot k)) &&
  decide (s.fifo.length ≤ s.params.cmdFifoDepth) && modeOk s

/-- A command was fetched in the body in progress and its segment is being set up: task `CTRL` is ready
with the next step between `lo` and `hi` in the normal section (spec/45_sched_tasks.md R209). -/
def settingUp (s : State) (lo hi : Nat) : Bool :=
  let r := s.task .ctrl
  r.ready && decide (lo ≤ r.tstep.toNat) && decide (r.tstep.toNat ≤ hi) && gCommand r.tmp

/-- One segment at a time (R214): in run mode a generator is `ALLOCATED` only while `CTRL` sets its segment
up, A before its steps 15 to 20 and B before its steps 18 to 21; a body holds no command before its step
11, and from there to the set-up of a generator that generator is `IDLE`; from step 19 on A is `ALLOCATED`
only with its partner, and at step 20 B is too. -/
def State.oneSegment (s : State) : Bool :=
  !s.schedEn ||
  ((!gRamp s .A .allocated || settingUp s 15 20) &&
   (!gRamp s .B .allocated || settingUp s 18 21) &&
   !settingUp s 1 10 &&
   (!settingUp s 11 14 || gRamp s .A .idle) &&
   (!settingUp s 11 17 || gRamp s .B .idle) &&
   (!settingUp s 19 20 || !gRamp s .A .allocated || gRamp s .B .allocated) &&
   (!settingUp s 20 20 || !gRamp s .B .allocated || gRamp s .A .allocated))

/-- Both duty slots hold +0.0 and are valid: what `SYS.FAULT` leaves (spec/46_sys_cfg.md R234). It says nothing of
the output ports, which follow at the next motor-output bodies. -/
def State.dutySlotsZero (s : State) : Bool :=
  s.slot (.duty .A) == { val := zeroF, valid := true } &&
  s.slot (.duty .B) == { val := zeroF, valid := true }

/-! ### The normal section of `CTRL` as a composition of operations (spec/45_sched_tasks.md R212 to R216)

The temporaries that carry a value from one step to another do not appear here: each operation is given the
value itself. -/

/-- The state after task `CTRL` issues an operation; the same state where it is not a next state, which no
operation of the block gives (spec/60_exceptions.md R254). -/
def runOp (i : Instr) (args : Words5) (s : State) : State :=
  match exec i (s.issue (.task .ctrl) args) with
  | .next t => t
  | .fault _ => s
  | .refused _ => s

/-- The set-up of one axis's segment (R213): what `KIN.SEG` answers with `OK`, the last and the current setpoint
and the feed, goes to `RAMP.LOAD` as current, last, feed, and `RAMP.INIT` follows; else nothing is loaded. -/
def segmentLoaded (a : Axis) (s : State) : State :=
  let x := runOp (.kinSeg a) {} s
  if x.op.status = .ok then
    runOp (.rampInit a) {} (runOp (.rampLoad a) { w0 := x.op.res.w1, w1 := x.op.res.w0, w2 := x.op.res.w2 } x)
  else x

/-- The set-up of a fetched command (R212, R213): `X`, `Y`, `F` to `KIN.UPDATE`, then both axes; both generators
are generated where both are `ALLOCATED`, and both are released where they are not. -/
def commandSetUp (c : Command) (s : State) : State :=
  let k := runOp .kinUpdate { w0 := c.x, w1 := c.y, w2 := c.f } s
  let z := segmentLoaded .B (segmentLoaded .A k)
  if (z.axis .A).ramp.state = .allocated ∧ (z.axis .B).ramp.state = .allocated then
    runOp (.rampGen .B) {} (runOp (.rampGen .A) {} z)
  else runOp (.rampRelease .B) {} (runOp (.rampRelease .A) {} z)

/-- The command fetch (R212): only where both generators are `IDLE`; an empty FIFO changes nothing. -/
def commandFetched (s : State) : State :=
  match s.fifo with
  | [] => s
  | c :: q =>
    if (s.axis .A).ramp.state = .idle ∧ (s.axis .B).ramp.state = .idle then commandSetUp c (s.setFifo q)
    else s

/-- The waypoint advance of one axis (R215): a `READY` generator that is not drained gives its next waypoint as
the setpoint; one that is drained then is released; no other generator is touched and the setpoint is held. -/
def waypointAdvanced (a : Axis) (s : State) : State :=
  let r := (s.axis a).ramp
  if r.state = .ready then
    let x := if r.rd = r.count then s else (runOp (.rampNext a) {} s).setSp a (bufRead r.buf r.rd.toNat)
    if (x.axis a).ramp.rd = r.count then runOp (.rampRelease a) {} x else x
  else s

/-- The control of one axis (R216): with a valid position slot, `PID.RUN` on the measured position, the setpoint
and the time at the port, and its answer, `OK` or `HOLD`, put to the duty slot; with the slot "none", nothing. -/
def axisControlled (a : Axis) (s : State) : State :=
  if (s.slot (.pos a)).valid then
    let x := runOp (.pidRun a) { w0 := (s.slot (.pos a)).val, w1 := (s.axis a).sp, w2 := s.ports.tNow } s
    x.setSlot (.duty a) { val := x.op.res.w0, valid := true }
  else s

/-- The effect of an undisturbed normal section: fetch, then a waypoint for each axis, then the controllers. -/
def normalSection (s : State) : State :=
  axisControlled .B (axisControlled .A (waypointAdvanced .B (waypointAdvanced .A (commandFetched s))))

/-! ### Runs -/

/-- `n` steps of the machine. -/
def runSteps : Nat → State → Outcome State Fault Refusal
  | 0, s => .next s
  | n + 1, s =>
    match step s with
    | .next s' => runSteps n s'
    | .fault r => .fault r
    | .refused r => .refused r

/-- The host's transaction of an operation, as an event. -/
def hostEvent (i : Instr) (args : Words5) : Event := .host (encode i) args

/-- The five words of a FIFO entry (spec/10_state.md R45). -/
def wordsOf (c : Command) : Words5 := { w0 := c.x, w1 := c.y, w2 := c.s, w3 := c.f, w4 := c.moveType }

/-- The ports with another counter value presented for the encoder of an axis. -/
def withEncCnt (p : Ports) (a : Axis) (raw : Half) : Ports :=
  match a with
  | .A => { p with encCntA := raw }
  | .B => { p with encCntB := raw }

/-- The successive values of a 16-bit counter that starts at `raw` and moves by each of a list of integers. -/
def counterValues (raw : Half) : List Int → List Half
  | [] => []
  | d :: ds => (raw + BitVec.ofInt 16 d) :: counterValues (raw + BitVec.ofInt 16 d) ds

/-- The state an event is applied to once it has been taken from the front of the pending events: they are
`rest`, and the strobes of the event before it have ended (log 4, log 8). -/
def afterTaking (s : State) (rest : List Event) : State :=
  ((s.setPending rest).endStrobe .A).endStrobe .B

/-- The exact real value of a finite f32 pattern (spec/00_scope.md R12): significand times a power of two. -/
def f32Value (x : Word) : ℚ :=
  (if x.msb then -1 else 1) * (Num.significand x : ℚ) * (2 : ℚ) ^ (Num.exponent x)

/-- For each counter value: the environment presents it, then the host issues `ENC.READ a`. -/
def sampleEvents (p : Ports) (a : Axis) (raws : List Half) : List Event :=
  raws.flatMap fun raw => [.drive (withEncCnt p a raw), hostEvent (.encRead a) {}]

end Sys2Proof.Machine
end

