-- ==== Sys2Proof/Certificates/Slice0/Obligations.lean ====
section
/-! DEFINITION. The statements for the provers. "Allowed" below always means `s.hostInRun = false`: the
transaction is a task's, or the block is in configuration mode; what the host meets in run mode is said by
`HostIsHeldToItsRightsInRunMode` for the operations it may not issue. -/

open Sys2Proof Sys2Proof.Machine Host

/-! ### Encoding -/

/-- R80 to R83, R183: words written out from their fields, of every family and format, and words of each kind
of R84 that are refused. -/
def Obligations.SampleWordsDecode : Prop :=
  decode 0x00000000#32 = .ok .nop ∧
  decode 0x00000004#32 = .ok .sysFault ∧
  decode 0x00110009#32 = .ok (.cfgWr 0x110) ∧
  decode 0x00190008#32 = .ok (.cfgRd 0x190) ∧
  decode 0x00000110#32 = .ok (.encRead .B) ∧
  decode 0x00000019#32 = .ok (.swLap .A) ∧
  decode 0x00000022#32 = .ok .kinFwd ∧
  decode 0x00000124#32 = .ok (.kinSeg .B) ∧
  decode 0x00000032#32 = .ok (.rampGen .A) ∧
  decode 0x00000140#32 = .ok (.pidRun .B) ∧
  decode 0x00000650#32 = .ok (.slotPut .homeReq) ∧
  decode 0x00000851#32 = .ok (.slotGet (.duty .B)) ∧
  decode 0x00000061#32 = .ok .fifoGet ∧
  decode 0x00000170#32 = .ok (.motOut .B) ∧
  decode 0x01000000#32 = .error .reservedBits ∧
  decode 0x00000006#32 = .error .undefinedOp ∧
  decode 0x00000101#32 = .error .selNotZero ∧
  decode 0x00001010#32 = .error .regNotZero ∧
  decode 0x00000210#32 = .error .axisOutOfRange ∧
  decode 0x00000950#32 = .error .slotOutOfRange

/-- R80, R82: the word of every operation, with every operand, decodes to that operation. -/
def Obligations.DecodeOfEncode : Prop := ∀ i : Instr, decode (encode i) = .ok i

/-- R83, R84: a word that decodes is the one word of its operation, so no word behaves as another operation. -/
def Obligations.EncodeOfDecode : Prop := ∀ (w : Word) (i : Instr), decode w = .ok i → encode i = w

/-- R83: the legal words are those that some row of the opcode table spells by its match, its mask and its
selector range. -/
def Obligations.LegalWordsAreTheTableWords : Prop :=
  ∀ w : Word, (∃ i, decode w = .ok i) ↔ ∃ r ∈ opcodeRows, r.spelledBy w = true

/-- R84: a host transaction of an illegal word answers `ILLEGAL` with every result 0, sets `FLAGS.ILLEGAL`
and changes no other state, in either mode. -/
def Obligations.IllegalWordIsAnsweredIllegal : Prop :=
  ∀ (w : Word) (args : Words5) (s : State) (why : Illegal), decode w = .error why →
    ∃ t, hostTransaction w args s = .next t ∧ Rejects s t .illegal .illegal

/-! ### The step -/

/-- R66, R67, R85: a step on a pending host transaction whose word decodes is `exec` of the operation, with the
transaction on the operation port. The second clause is the model's choice and no rule of the spec (log 4): a
word placed by `withFetchWord` is a host transaction with all arguments 0, and the very next step runs it. That
events are taken from a list of pending ones is log 4's too, that the strobes end as an event is taken log 8's. -/
def Obligations.HostEventRunsTheDecodedWord : Prop :=
  (∀ (s : State) (w : Word) (args : Words5) (rest : List Event) (i : Instr),
    s.pending = .host w args :: rest → decode w = .ok i →
    step s = exec i ((afterTaking s rest).issue .host args)) ∧
  ∀ (s : State) (i : Instr),
    step (s.withFetchWord 32 (encode i).toNat) = exec i ((afterTaking s s.pending).issue .host {})

/-- R203: a task step of the running task: where the guard is false the step index alone moves; where it is
true the operation is executed on the task's behalf, then the post-action, then the step index moves; after
the last step the task is not ready and its index is 0. -/
def Obligations.TaskEventRunsTheGuardedStep : Prop :=
  ∀ (s : State) (rest : List Event) (u : TaskId),
    s.pending = .taskStep :: rest → runningTask s = some u →
    let k := (s.task u).tstep.toNat
    let s₁ := afterTaking s rest
    ∃ v, (bodyStep u s₁ k = none → v = s₁) ∧
      (∀ o, bodyStep u s₁ k = some o →
        ∃ x, exec o.instr (s₁.issue (.task u) o.args) = .next x ∧ v = bodyPost u k x) ∧
      ∃ t, step s = .next t ∧
        (k + 1 = bodyLen u → (t.task u).ready = false ∧ (t.task u).tstep = 0) ∧
        (k + 1 ≠ bodyLen u →
          (t.task u).ready = (v.task u).ready ∧ (t.task u).tstep = BitVec.ofNat 8 (k + 1)) ∧
        Frame { reg := [.tstat u] } v t ∧ t.op = v.op

/-- R254, R256 (a): every operation, and every event, ends in a next state: nothing traps. -/
def Obligations.NothingTraps : Prop :=
  (∀ (i : Instr) (s : State), ∃ t, exec i s = .next t) ∧ ∀ s : State, ∃ t, step s = .next t

/-- R280, R281, R26, R46, R231: `SYS.RESET` in any state and mode, and a pulse on `rst`, leave every register
but `PARAMS` at 0, every buffer word, temporary and output at +0.0, the FIFO empty; `PARAMS` and the input
ports are not affected. (The pending events are the model's own, log 4.) -/
def Obligations.ResetRestoresEveryRegister : Prop :=
  ∀ (s : State) (rest : List Event),
    (∃ t, exec .sysReset s = .next t ∧ Answers t .ok {} ∧ (∀ r, r ≠ .params → readReg t r = 0) ∧
      (∀ a i, bufRead (t.axis a).ramp.buf i = zeroF) ∧ (∀ u, (t.task u).tmp = {}) ∧ t.fifo = [] ∧
      (∀ a, (t.axis a).dutyOut = zeroF ∧ (t.axis a).dutyStb = false) ∧ t.params = s.params ∧
      t.ports = s.ports ∧ t.pending = s.pending ∧ t.envIndex = s.envIndex) ∧
    (s.pending = .reset :: rest → ∃ t, step s = .next t ∧ (∀ r, r ≠ .params → readReg t r = 0) ∧
      (∀ a i, bufRead (t.axis a).ramp.buf i = zeroF) ∧ (∀ u, (t.task u).tmp = {}) ∧ t.fifo = [] ∧
      (∀ a, (t.axis a).dutyOut = zeroF ∧ (t.axis a).dutyStb = false) ∧ t.params = s.params ∧
      t.ports = s.ports ∧ t.pending = rest ∧ t.envIndex = s.envIndex)

/-! ### Modes, rights, statuses, flags -/

/-- R259: the mode changes only by `SYS.START`, `SYS.STOP`, `SYS.RESET` and `rst`. -/
def Obligations.OnlyStartStopResetChangeTheMode : Prop :=
  ∀ s t : State, step s = .next t → t.schedEn ≠ s.schedEn →
    nextEvent s = .reset ∨
      ∃ w args i, nextEvent s = .host w args ∧ decode w = .ok i ∧
        (i = .sysReset ∨ (i = .sysStart ∧ t.schedEn = true) ∨ (i = .sysStop ∧ t.schedEn = false))

/-- R24, R255, R256 (c): the fault bit is set only by `SYS.FAULT` and cleared only by `SYS.CLRFAULT`,
`SYS.RESET` and `rst`. -/
def Obligations.OnlyTheHostMovesTheFaultBit : Prop :=
  ∀ s t : State, step s = .next t → t.fault ≠ s.fault →
    (nextEvent s = .reset ∧ t.fault = false) ∨
      ∃ w args i, nextEvent s = .host w args ∧ decode w = .ok i ∧
        ((i = .sysFault ∧ t.fault = true) ∨ ((i = .sysClrfault ∨ i = .sysReset) ∧ t.fault = false))

/-- R260, R85 step 2: in run mode a host transaction of an operation outside the list answers `DENIED`, sets
`FLAGS.DENIED` and changes nothing else. -/
def Obligations.HostIsHeldToItsRightsInRunMode : Prop :=
  ∀ (i : Instr) (s : State), s.hostInRun = true → hostMayInRun i = false →
    ∃ t, exec i s = .next t ∧ Rejects s t .denied .denied

/-- R261: an operation that is allowed answers the same and does the same whoever issues it. -/
def Obligations.AllowedOperationsDoNotDependOnTheIssuer : Prop :=
  ∀ (i : Instr) (s : State) (who : Agent) (args : Words5), hostMayInRun i = true ∨ s.schedEn = false →
    ∃ t u, exec i (s.issue .host args) = .next t ∧ exec i (s.issue who args) = .next u ∧
      u.op.status = t.op.status ∧ u.op.res = t.op.res ∧ Frame {} t u

/-- R38, R237: no event but reset and the host's `CFG.WR` to that register in configuration mode changes a
configuration register. -/
def Obligations.OnlyCfgWrChangesConfiguration : Prop :=
  ∀ (s t : State) (r : Reg), step s = .next t → regClass r = .cfg → readReg t r ≠ readReg s r →
    nextEvent s = .reset ∨
      ∃ w args i, nextEvent s = .host w args ∧ decode w = .ok i ∧
        (i = .sysReset ∨
          (s.schedEn = false ∧ ∃ addr, i = .cfgWr addr ∧ regAt s.params addr = some r))

/-- R256, R100: an operation of one axis neither reads nor writes the registers and output of the other axis:
whatever they hold, they stay and everything else comes out the same. -/
def Obligations.AxesDoNotInterfere : Prop :=
  ∀ (i : Instr) (a : Axis) (s t : State) (x : AxisRegs), axisOf i = some a → exec i s = .next t →
    exec i (s.setAxis (otherAxis a) x) = .next (t.setAxis (otherAxis a) x)

/-- R251: the statuses an operation can return. -/
def Obligations.StatusesAreThoseOfTheTable : Prop :=
  ∀ (i : Instr) (s t : State), exec i s = .next t →
    t.op.status = .ok ∨ t.op.status ∈ statusesBesidesOk i ∨
      (s.hostInRun = true ∧ hostMayInRun i = false ∧ t.op.status = .denied)

/-- R22: a flag that is set stays set until reset or until the host writes 1 to its bit of `FLAGS`. -/
def Obligations.FlagsAreSticky : Prop :=
  ∀ (s t : State) (g : Flag), step s = .next t → s.flag g = true → t.flag g = false →
    nextEvent s = .reset ∨
      ∃ w args i, nextEvent s = .host w args ∧ decode w = .ok i ∧
        (i = .sysReset ∨ (i = .cfgWr 0x001 ∧ args.w0.getLsbD (flagBit g) = true))

/-- R252, R22: an operation sets exactly the flag that records its status, and `FIFO_FULL` also where
`FIFO.PUT` drops the oldest entry; `SYS.RESET` and a write of `FLAGS` are the two that clear. -/
def Obligations.FlagsRecordTheStatus : Prop :=
  ∀ (i : Instr) (s t : State) (g : Flag), exec i s = .next t → i ≠ .sysReset → i ≠ .cfgWr 0x001 →
    (t.flag g = true ↔
      s.flag g = true ∨ recordedFlag i t.op.status = some g ∨
        (g = .fifoFull ∧ i = .fifoPut ∧ s.params.fullPolicy = .dropOldest ∧
          s.params.cmdFifoDepth ≤ s.fifo.length))

/-- R254, R163, R82: an operation that does not answer `OK` changes nothing but the flag that records its
status, and only `HOLD` returns a result. -/
def Obligations.NotOkChangesOnlyItsFlag : Prop :=
  ∀ (i : Instr) (s t : State), exec i s = .next t → t.op.status ≠ .ok →
    (t.op.status ≠ .hold → t.op.res = {}) ∧ Frame { flag := (recordedFlag i t.op.status).toList } s t

/-! ### System and configuration operations -/

/-- R230: `NOP` answers `OK` and changes no state, in either mode. -/
def Obligations.NopChangesNothing : Prop :=
  ∀ s : State, ∃ t, exec .nop s = .next t ∧ Answers t .ok {} ∧ Frame {} s t

/-- R232: `SYS.START` is `OK` and changes nothing in run mode; it is `DENIED` while a period is 0 or a
generator is `ALLOCATED`; otherwise it sets run mode, zeroes `SCHED_TIME` and releases every task. -/
def Obligations.StartReleasesEveryTask : Prop :=
  ∀ s : State,
    (s.schedEn = true → ∃ t, exec .sysStart s = .next t ∧ Answers t .ok {} ∧ Frame {} s t) ∧
    (s.schedEn = false →
      (∃ u, (s.task u).period = 0) ∨ (∃ a, (s.axis a).ramp.state = .allocated) →
      ∃ t, exec .sysStart s = .next t ∧ Rejects s t .denied .denied) ∧
    (s.schedEn = false → (∀ u, (s.task u).period ≠ 0) → (∀ a, (s.axis a).ramp.state ≠ .allocated) →
      ∃ t, exec .sysStart s = .next t ∧ Answers t .ok {} ∧ t.schedEn = true ∧ t.fault = s.fault ∧
        t.schedTime = 0 ∧
        (∀ u, (t.task u).wake = (s.task u).period ∧ (t.task u).ready = true ∧ (t.task u).tstep = 0) ∧
        Frame { reg := .ctrl :: .schedTime :: (taskList.map .wake ++ taskList.map .tstat) } s t)

/-- R233: `SYS.STOP` clears `SCHED_EN` and every task's `READY` and `tstep`; `SCHED_TIME`, `WAKE`, the fault
bit, the outputs and all else keep their values. -/
def Obligations.StopAbandonsEveryBody : Prop :=
  ∀ s : State, ∃ t, exec .sysStop s = .next t ∧ Answers t .ok {} ∧ t.schedEn = false ∧
    t.fault = s.fault ∧ (∀ u, (t.task u).ready = false ∧ (t.task u).tstep = 0) ∧
    Frame { reg := .ctrl :: taskList.map .tstat } s t

/-- R234, R235, R255: `SYS.FAULT` sets the fault bit and both duty slots to +0.0, valid; `SYS.CLRFAULT` clears
the bit and does the writes of both `PID.RESET`; neither changes anything else, whoever issues them and in
either mode. -/
def Obligations.FaultStateEntryAndExit : Prop :=
  ∀ s : State,
    (∃ t, exec .sysFault s = .next t ∧ Answers t .ok {} ∧ t.fault = true ∧ t.schedEn = s.schedEn ∧
      t.dutySlotsZero = true ∧
      Frame { reg := .ctrl :: (slotRegs (.duty .A) ++ slotRegs (.duty .B)) } s t) ∧
    (∃ t, exec .sysClrfault s = .next t ∧ Answers t .ok {} ∧ t.fault = false ∧ t.schedEn = s.schedEn ∧
      (∀ a, ∀ r ∈ pidStateRegs a, readReg t r = 0) ∧
      Frame { reg := .ctrl :: (pidStateRegs .A ++ pidStateRegs .B) } s t)

/-- R236, R64: `CFG.RD` answers the register's value at every mapped address, in either mode, with no side
effect; at an unmapped address it answers `ILLEGAL`. Registers narrower than 32 bits read zero-extended, and the
words made of fields read as R24 (`CTRL`: `SCHED_EN` bit 0, `FAULT` bit 1), R26 (`PARAMS`: depth 7:0, capacity
16:8, policy bit 24) and R28 (`TSTAT`: `READY` bit 0, `tstep` 15:8) lay them out, all other bits 0. -/
def Obligations.CfgReadAnswersTheRegister : Prop :=
  ∀ (addr : RegAddr) (s : State),
    (∀ r, regAt s.params addr = some r →
      ∃ t, exec (.cfgRd addr) s = .next t ∧ Answers t .ok { w0 := readReg s r } ∧ Frame {} s t) ∧
    (regAt s.params addr = none →
      ∃ t, exec (.cfgRd addr) s = .next t ∧ Rejects s t .illegal .illegal) ∧
    (readReg s .ctrl).toNat = s.schedEn.toNat + 2 * s.fault.toNat ∧
    (s.params.wellFormed = true → (readReg s .params).toNat =
      s.params.cmdFifoDepth + 2 ^ 8 * s.params.rampCap +
        2 ^ 24 * (match s.params.fullPolicy with | .reject => 0 | .dropOldest => 1)) ∧
    (∀ u, (readReg s (.tstat u)).toNat =
      (s.task u).ready.toNat + 2 ^ 8 * (s.task u).tstep.toNat) ∧
    (readReg s .flags).toNat = s.flags.toNat ∧
    (∀ k, (readReg s (.slotValid k)).toNat = (s.slot k).valid.toNat) ∧
    (s.params.wellFormed = true → s.fifo.length ≤ s.params.cmdFifoDepth →
      (readReg s .fifoCount).toNat = s.fifo.length) ∧
    (∀ a, (readReg s (.axis a .encRaw)).toNat = (s.axis a).enc.raw.toNat ∧
      (readReg s (.axis a .encLastRaw)).toNat = (s.axis a).enc.lastRaw.toNat ∧
      (readReg s (.axis a .encInverted)).toNat = (s.axis a).enc.inverted.toNat ∧
      (readReg s (.axis a .swCount)).toNat = (s.axis a).sw.count.toNat ∧
      (readReg s (.axis a .swLast)).toNat = (s.axis a).sw.last.toNat ∧
      (readReg s (.axis a .pidInit)).toNat = (s.axis a).pid.pidInit.toNat ∧
      (readReg s (.axis a .rampState)).toNat =
        (match (s.axis a).ramp.state with | .idle => 0 | .allocated => 1 | .ready => 2))

/-- R237, R22, R38: `CFG.WR` where it is allowed (in run mode the host may write `FLAGS` only): `ILLEGAL` at an
unmapped address; write-one-to-clear at `FLAGS`; `DENIED` at a register of class RO; at a configuration
register the word is stored as given, `ENC_INVERTED` keeping bit 0 only. -/
def Obligations.CfgWriteStoresByClass : Prop :=
  ∀ (addr : RegAddr) (s : State), s.hostInRun = false ∨ addr = 0x001 →
    (regAt s.params addr = none →
      ∃ t, exec (.cfgWr addr) s = .next t ∧ Rejects s t .illegal .illegal) ∧
    (regAt s.params addr = some .flags →
      ∃ t, exec (.cfgWr addr) s = .next t ∧ Answers t .ok {} ∧
        (∀ n, t.flags.getLsbD n = (s.flags.getLsbD n && !s.op.args.w0.getLsbD n)) ∧
        Frame { flag := allFlags } s t) ∧
    (∀ r, regAt s.params addr = some r → regClass r = .ro →
      ∃ t, exec (.cfgWr addr) s = .next t ∧ Rejects s t .denied .denied) ∧
    (∀ r, regAt s.params addr = some r → regClass r = .cfg →
      ∃ t, exec (.cfgWr addr) s = .next t ∧ Answers t .ok {} ∧
        ((∀ a, r ≠ .axis a .encInverted) → readReg t r = s.op.args.w0) ∧
        (∀ a, r = .axis a .encInverted → readReg t r = if s.op.args.w0.getLsbD 0 then 1 else 0) ∧
        Frame { reg := [r] } s t)

/-- R65, R37: the register map. An address is mapped to a register exactly where it is that register's
address, and a waypoint word exists below `RAMP_CAP` only. -/
def Obligations.RegisterMapIsTheAddressTable : Prop :=
  ∀ (p : Params) (addr : RegAddr) (r : Reg),
    regAt p addr = some r ↔ regAddr r = addr.toNat ∧ ∀ a i, r = .rampBuf a i → i.toNat < p.rampCap

/-! ### Encoder and stopwatch -/

/-- R101: `ENC.READ` samples the port once; the 16-bit difference, sign-extended, is corrected by 65536 where
its magnitude exceeds the bound, negated if inverted, accumulated modulo 2^32 and latched. -/
def Obligations.EncReadAccumulatesTheCorrectedDelta : Prop :=
  ∀ (a : Axis) (s : State), s.hostInRun = false →
    let e := (s.axis a).enc
    let raw := s.portEnc a
    let d : Int := ((raw.toNat : Int) - (e.lastRaw.toNat : Int)).bmod 65536
    let c := if e.ovfBound.toInt < |d| then (if 0 ≤ d then d - 65536 else d + 65536) else d
    let delta := if e.inverted then -c else c
    ∃ t, exec (.encRead a) s = .next t ∧ Answers t .ok { w0 := (t.axis a).enc.abs } ∧
      (t.axis a).enc.abs.toInt = (e.abs.toInt + delta).bmod (2 ^ 32) ∧
      (t.axis a).enc.lastDelta.toInt = delta ∧
      (t.axis a).enc.raw = raw ∧ (t.axis a).enc.lastRaw = raw ∧
      Frame { reg := [.axis a .encAbs, .axis a .encLastDelta, .axis a .encRaw, .axis a .encLastRaw] } s t

/-- R102: `ENC.ZERO` sets `ENC_ABS` to 0 and leaves every other register, so the next read measures from the
last sample. -/
def Obligations.EncZeroClearsThePositionOnly : Prop :=
  ∀ (a : Axis) (s : State), s.hostInRun = false →
    ∃ t, exec (.encZero a) s = .next t ∧ Answers t .ok {} ∧ readReg t (.axis a .encAbs) = 0 ∧
      Frame { reg := [.axis a .encAbs] } s t

/-- R103, R104: `ENC.POS` and `ENC.DPOS` convert `ENC_ABS` and `ENC_LAST_DELTA` to millimetres, dividing first,
and write no state. -/
def Obligations.EncConversionsAreReadOnly : Prop :=
  ∀ (a : Axis) (s : State), s.hostInRun = false →
    let e := (s.axis a).enc
    (∃ t, exec (.encPos a) s = .next t ∧
      Answers t .ok { w0 := Num.fmul (Num.fdiv (Num.i2f e.abs.toInt) e.tpr) e.mmpr } ∧ Frame {} s t) ∧
    (∃ t, exec (.encDpos a) s = .next t ∧
      Answers t .ok { w0 := Num.fmul (Num.fdiv (Num.i2f e.lastDelta.toInt) e.tpr) e.mmpr } ∧
      Frame {} s t)

/-- R105, R106: `SW.RESTART` zeroes both registers without sampling; `SW.LAP` samples once, answers the
elapsed count modulo 2^16 and rebases. -/
def Obligations.StopwatchRestartAndLap : Prop :=
  ∀ (a : Axis) (s : State), s.hostInRun = false →
    (∃ t, exec (.swRestart a) s = .next t ∧ Answers t .ok {} ∧ (t.axis a).sw.last = 0 ∧
      (t.axis a).sw.count = 0 ∧ Frame { reg := [.axis a .swCount, .axis a .swLast] } s t) ∧
    (∃ t, exec (.swLap a) s = .next t ∧ t.op.status = .ok ∧
      t.op.res = { w0 := t.op.res.w0 } ∧
      (t.op.res.w0.toNat : Int) =
        (((s.portSw a).toNat : Int) - ((s.axis a).sw.last.toNat : Int)) % 65536 ∧
      (t.axis a).sw.count = s.portSw a ∧ (t.axis a).sw.last = s.portSw a ∧
      Frame { reg := [.axis a .swCount, .axis a .swLast] } s t)

/-- R107: over any sequence of samples whose true movements stay within a legal bound, `ENC_ABS` moves by their
sum (negated if inverted) modulo 2^32, whatever number of times the 16-bit counter wrapped. The samples are
taken by the host in configuration mode; each is preceded by a change of the port. -/
def Obligations.EncoderTracksAnUnboundedCounter : Prop :=
  ∀ (s : State) (a : Axis) (ds : List Int) (rest : List Event),
    let e := (s.axis a).enc
    1 ≤ e.ovfBound.toInt → e.ovfBound.toInt ≤ 32767 → (∀ d ∈ ds, |d| ≤ e.ovfBound.toInt) →
    s.schedEn = false → s.pending = sampleEvents s.ports a (counterValues e.lastRaw ds) ++ rest →
    ∃ t, runSteps (2 * ds.length) s = .next t ∧ t.pending = rest ∧
      (t.axis a).enc.abs.toInt =
        (e.abs.toInt + (if e.inverted then -ds.sum else ds.sum)).bmod (2 ^ 32)

/-- R108: a movement beyond the bound is accepted with the opposite sign and 65536 less its magnitude; the
status is `OK` and no flag is set. -/
def Obligations.BoundViolationIsSilent : Prop :=
  ∀ (a : Axis) (s : State) (d : Int), s.hostInRun = false →
    let e := (s.axis a).enc
    1 ≤ e.ovfBound.toInt → e.ovfBound.toInt < |d| → -32768 ≤ d → d ≤ 32767 →
    s.portEnc a = e.lastRaw + BitVec.ofInt 16 d →
    let c := if 0 < d then d - 65536 else d + 65536
    ∃ t, exec (.encRead a) s = .next t ∧ t.op.status = .ok ∧ t.flags = s.flags ∧
      (t.axis a).enc.lastDelta.toInt = (if e.inverted then -c else c) ∧
      (0 < d ↔ c < 0) ∧ |c| = 65536 - |d|

/-! ### Kinematics -/

/-- R121, R122: `KIN.UPDATE` rotates current to last and stores the three arguments unchecked; `KIN.RESET`
zeroes all six registers. -/
def Obligations.KinematicsRotatesAndResets : Prop :=
  ∀ s : State, s.hostInRun = false →
    (∃ t, exec .kinUpdate s = .next t ∧ Answers t .ok {} ∧
      t.kin = { curX := s.op.args.w0, curY := s.op.args.w1, curF := s.op.args.w2,
                lastX := s.kin.curX, lastY := s.kin.curY, lastF := s.kin.curF } ∧
      Frame { reg := kinematicsRegs } s t) ∧
    (∃ t, exec .kinReset s = .next t ∧ Answers t .ok {} ∧
      (∀ r ∈ kinematicsRegs, readReg t r = 0) ∧
      Frame { reg := kinematicsRegs } s t)

/-- R123, R124, R120: `KIN.FWD` and `KIN.INV` are pure, whoever issues them and in either mode. -/
def Obligations.CoreXyMapsArePure : Prop :=
  ∀ s : State,
    let x := s.op.args.w0
    let y := s.op.args.w1
    (∃ t, exec .kinFwd s = .next t ∧
      Answers t .ok { w0 := Num.fsub x y, w1 := Num.fsub (Num.fneg x) y } ∧ Frame {} s t) ∧
    (∃ t, exec .kinInv s = .next t ∧
      Answers t .ok
        { w0 := Num.fdiv (Num.fsub x y) twoF, w1 := Num.fneg (Num.fdiv (Num.fadd x y) twoF) } ∧
      Frame {} s t)

/-- R125, R120: `KIN.SEG` answers `NO_MOTION` where the path length or the feed is zero; otherwise the last and
current motor setpoints of the axis and its feed; no Kinematics register is written. -/
def Obligations.KinSegGuardsTheZeroDistance : Prop :=
  ∀ (a : Axis) (s : State), s.hostInRun = false →
    let k := s.kin
    let dx := Num.fsub k.curX k.lastX
    let dy := Num.fsub k.curY k.lastY
    let len := Num.fsqrt (Num.fadd (Num.fmul dx dx) (Num.fmul dy dy))
    let m : Word → Word → Word := fun x y =>
      match a with
      | .A => Num.fsub x y
      | .B => Num.fsub (Num.fneg x) y
    ((Num.feq len zeroF = true ∨ Num.feq k.curF zeroF = true) →
      ∃ t, exec (.kinSeg a) s = .next t ∧ Rejects s t .noMotion (.noMotion a)) ∧
    (Num.feq len zeroF = false → Num.feq k.curF zeroF = false →
      ∃ t, exec (.kinSeg a) s = .next t ∧
        Answers t .ok
          { w0 := m k.lastX k.lastY, w1 := m k.curX k.curY,
            w2 := Num.fdiv
              (Num.fmul k.curF (Num.fabs (Num.fsub (m k.curX k.curY) (m k.lastX k.lastY)))) len } ∧
        Frame {} s t)

/-! ### Ramp generator -/

/-- R141: `RAMP.LOAD` latches its three arguments in `IDLE`; otherwise it answers `BUSY` with no state
change. -/
def Obligations.RampLoadLatchesInIdleOnly : Prop :=
  ∀ (a : Axis) (s : State), s.hostInRun = false →
    ((s.axis a).ramp.state ≠ .idle →
      ∃ t, exec (.rampLoad a) s = .next t ∧ Answers t .busy {} ∧ Frame {} s t) ∧
    ((s.axis a).ramp.state = .idle →
      ∃ t, exec (.rampLoad a) s = .next t ∧ Answers t .ok {} ∧
        readReg t (.axis a .rampCur) = s.op.args.w0 ∧ readReg t (.axis a .rampLast) = s.op.args.w1 ∧
        readReg t (.axis a .rampFeed) = s.op.args.w2 ∧
        Frame { reg := [.axis a .rampCur, .axis a .rampLast, .axis a .rampFeed] } s t)

/-- R142, R143, R147: `RAMP.INIT`, in the order of its checks: `BUSY` outside `IDLE`; `NO_MOTION` for a non-zero
distance at zero feed; `ALLOC_FAULT` where the segment does not fit; otherwise the travel time, the slice
count and the waypoint count (1 degenerate, `n + 1` even, `n + 2` uneven) are latched, `ALLOCATED`. -/
def Obligations.RampInitSizesTheSegment : Prop :=
  ∀ (a : Axis) (s : State), s.hostInRun = false →
    let r := (s.axis a).ramp
    let tt := if Num.feq r.cur r.last then zeroF
              else Num.fdiv (Num.fabs (Num.fsub r.cur r.last)) r.feed
    let n := Num.f2n (Num.fdiv tt r.slice)
    let count := if Num.fle tt r.slice then 1
                 else if Num.feq (Num.fmul (Num.i2f n) r.slice) tt then n + 1 else n + 2
    let noFeed := Num.feq r.cur r.last = false ∧ Num.feq r.feed zeroF = true
    (r.state ≠ .idle → ∃ t, exec (.rampInit a) s = .next t ∧ Answers t .busy {} ∧ Frame {} s t) ∧
    (r.state = .idle → noFeed →
      ∃ t, exec (.rampInit a) s = .next t ∧ Rejects s t .noMotion (.noMotion a)) ∧
    (r.state = .idle → ¬noFeed → s.params.rampCap < count →
      ∃ t, exec (.rampInit a) s = .next t ∧ Rejects s t .allocFault (.alloc a)) ∧
    (r.state = .idle → ¬noFeed → count ≤ s.params.rampCap →
      ∃ t, exec (.rampInit a) s = .next t ∧ Answers t .ok { w0 := BitVec.ofNat 32 count } ∧
        readReg t (.axis a .rampTt) = tt ∧ readReg t (.axis a .rampN) = BitVec.ofNat 32 n ∧
        readReg t (.axis a .rampCount) = BitVec.ofNat 32 count ∧ readReg t (.axis a .rampRd) = 0 ∧
        (t.axis a).ramp.state = .allocated ∧
        Frame { reg := [.axis a .rampTt, .axis a .rampN, .axis a .rampCount, .axis a .rampRd,
                        .axis a .rampState] } s t)

/-- R144, R147: `RAMP.GEN` answers `NOT_INIT` in `IDLE` and `BUSY` in `READY`; in `ALLOCATED` it writes the
interpolated waypoints `last + ((d * i) * slice) / tt` below `count - 1`, then `current` exactly, and no other
word of the buffer. The premise on the buffer is an invariant of the machine (`InvariantIsKept`). -/
def Obligations.RampGenInterpolates : Prop :=
  ∀ (a : Axis) (s : State), s.hostInRun = false → s.params.wellFormed = true →
    rampOk s.params.rampCap (s.axis a).ramp = true →
    let r := (s.axis a).ramp
    let d := Num.fsub r.cur r.last
    let word : Nat → Word := fun i =>
      Num.fadd r.last (Num.fdiv (Num.fmul (Num.fmul d (Num.i2f i)) r.slice) r.tt)
    (r.state = .idle → ∃ t, exec (.rampGen a) s = .next t ∧ Rejects s t .notInit (.notInit a)) ∧
    (r.state = .ready → ∃ t, exec (.rampGen a) s = .next t ∧ Answers t .busy {} ∧ Frame {} s t) ∧
    (r.state = .allocated →
      ∃ t, exec (.rampGen a) s = .next t ∧ Answers t .ok { w0 := r.count } ∧
        (∀ i : BitVec 8, i.toNat + 1 < r.count.toNat → readReg t (.rampBuf a i) = word i.toNat) ∧
        (∀ i : BitVec 8, i.toNat + 1 = r.count.toNat → readReg t (.rampBuf a i) = r.cur) ∧
        readReg t (.axis a .rampTermFeed) = r.feed ∧ readReg t (.axis a .rampRd) = 0 ∧
        (t.axis a).ramp.state = .ready ∧
        Frame { reg := [.axis a .rampTermFeed, .axis a .rampRd, .axis a .rampState] ++
                       (List.range r.count.toNat).map fun i => .rampBuf a (BitVec.ofNat 8 i) } s t)

/-- R145: where it is allowed, `RAMP.NEXT` answers `NOT_INIT` outside `READY` and `EMPTY` when drained; otherwise the
waypoint at `RAMP_RD` and the number still undrained after it, and advances `RAMP_RD`. And from a `READY` segment the waypoints
come out in index order, each once: the host's call number `n + 1` answers the word `n` places on and the number
left behind it. -/
def Obligations.RampNextTakesTheWaypointsInOrder : Prop :=
  (∀ (a : Axis) (s : State), s.hostInRun = false →
    let r := (s.axis a).ramp
    (r.state ≠ .ready → ∃ t, exec (.rampNext a) s = .next t ∧ Rejects s t .notInit (.notInit a)) ∧
    (r.state = .ready → r.rd = r.count →
      ∃ t, exec (.rampNext a) s = .next t ∧ Answers t .empty {} ∧ Frame {} s t) ∧
    (r.state = .ready → r.rd ≠ r.count →
      ∃ t, exec (.rampNext a) s = .next t ∧
        Answers t .ok { w0 := bufRead r.buf r.rd.toNat, w1 := r.count - (r.rd + 1) } ∧
        readReg t (.axis a .rampRd) = r.rd + 1 ∧ Frame { reg := [.axis a .rampRd] } s t)) ∧
  ∀ (s : State) (a : Axis) (n : Nat) (rest : List Event),
    let r := (s.axis a).ramp
    r.state = .ready → r.rd.toNat + n < r.count.toNat → s.schedEn = false →
    s.pending = List.replicate (n + 1) (hostEvent (.rampNext a) {}) ++ rest →
    ∃ t, runSteps (n + 1) s = .next t ∧ t.pending = rest ∧
      Answers t .ok
        { w0 := bufRead r.buf (r.rd.toNat + n),
          w1 := BitVec.ofNat 32 (r.count.toNat - (r.rd.toNat + n + 1)) } ∧
      (t.axis a).ramp.rd.toNat = r.rd.toNat + n + 1 ∧ (t.axis a).ramp.state = .ready

/-- R146, R140: `RAMP.RELEASE` takes every state to `IDLE` with `RAMP_COUNT`, `RAMP_RD` and `RAMP_N` 0, and
leaves the operands and the buffer. -/
def Obligations.RampReleaseGoesToIdle : Prop :=
  ∀ (a : Axis) (s : State), s.hostInRun = false →
    ∃ t, exec (.rampRelease a) s = .next t ∧ Answers t .ok {} ∧
      (∀ r ∈ [AxisReg.rampState, .rampCount, .rampRd, .rampN], readReg t (.axis a r) = 0) ∧
      Frame { reg := [.axis a .rampState, .axis a .rampCount, .axis a .rampRd, .axis a .rampN] } s t

/-! ### PID controller -/

/-- R162, R163, R160: the first `PID.RUN` latches the error, the time and the output of the stage and does not
touch the integral or the derivative; a call whose `dt` is not above 0 answers `HOLD` with the last output and
changes nothing but `DT_HOLD`. -/
def Obligations.PidFirstCallAndHold : Prop :=
  ∀ (a : Axis) (s : State), s.hostInRun = false →
    let p := (s.axis a).pid
    let error := Num.fsub s.op.args.w1 s.op.args.w0
    let u := Num.clamp
      (Num.fadd (Num.fadd (Num.fmul p.kp error) (Num.fmul p.ki p.integralAccum))
        (Num.fmul p.kd p.filtDeriv)) p.satLow p.satHigh
    let off := Num.fmul p.deadbandPct s.params.dbScale
    let out := if Num.fgt u zeroF then Num.clamp (Num.fadd u off) p.satLow p.satHigh
               else if Num.flt u zeroF then Num.clamp (Num.fsub u off) p.satLow p.satHigh
               else u
    (p.pidInit = false →
      ∃ t, exec (.pidRun a) s = .next t ∧ Answers t .ok { w0 := out } ∧
        (t.axis a).pid = { p with lastError := error, lastTime := s.op.args.w2, lastOutput := out,
                                  pidInit := true } ∧
        Frame { reg := [.axis a .lastError, .axis a .lastTime, .axis a .lastOutput,
                        .axis a .pidInit] } s t) ∧
    (p.pidInit = true → Num.fgt (Num.fsub s.op.args.w2 p.lastTime) zeroF = false →
      ∃ t, exec (.pidRun a) s = .next t ∧ Answers t .hold { w0 := p.lastOutput } ∧
        t.flag (.dtHold a) = true ∧ Frame { flag := [.dtHold a] } s t)

/-- R161, R160: `PID.RUN` in the running state with `dt` above 0: the clamped integral, the filtered
derivative, the output of the stage on the new values, and what is latched. -/
def Obligations.PidRunningUpdate : Prop :=
  ∀ (a : Axis) (s : State), s.hostInRun = false →
    let p := (s.axis a).pid
    let dt := Num.fsub s.op.args.w2 p.lastTime
    let error := Num.fsub s.op.args.w1 s.op.args.w0
    let i := Num.clamp (Num.fadd p.integralAccum (Num.fmul error dt)) (Num.fneg p.integralMax)
      p.integralMax
    let rd := Num.fdiv (Num.fsub error p.lastError) dt
    let alpha := Num.fdiv dt (Num.fadd p.derivTau dt)
    let d := Num.fadd p.filtDeriv (Num.fmul alpha (Num.fsub rd p.filtDeriv))
    let u := Num.clamp
      (Num.fadd (Num.fadd (Num.fmul p.kp error) (Num.fmul p.ki i)) (Num.fmul p.kd d))
      p.satLow p.satHigh
    let off := Num.fmul p.deadbandPct s.params.dbScale
    let out := if Num.fgt u zeroF then Num.clamp (Num.fadd u off) p.satLow p.satHigh
               else if Num.flt u zeroF then Num.clamp (Num.fsub u off) p.satLow p.satHigh
               else u
    p.pidInit = true → Num.fgt dt zeroF = true →
      ∃ t, exec (.pidRun a) s = .next t ∧ Answers t .ok { w0 := out } ∧
        (t.axis a).pid = { p with integralAccum := i, filtDeriv := d, lastError := error,
                                  lastTime := s.op.args.w2, lastOutput := out } ∧
        Frame { reg := [.axis a .integralAccum, .axis a .filtDeriv, .axis a .lastError,
                        .axis a .lastTime, .axis a .lastOutput] } s t

/-- R164: `PID.RESET` returns the controller to the initial state and leaves its configuration. -/
def Obligations.PidResetReturnsToTheInitialState : Prop :=
  ∀ (a : Axis) (s : State), s.hostInRun = false →
    ∃ t, exec (.pidReset a) s = .next t ∧ Answers t .ok {} ∧
      (∀ r ∈ pidStateRegs a, readReg t r = 0) ∧ Frame { reg := pidStateRegs a } s t

/-- R165 (a), (b): with finite limits in order, a finite deadband offset and a control sum that is a number, an
`OK` result is a number in `[SAT_LOW, SAT_HIGH]` and becomes `LAST_OUTPUT`; with a running controller, a
non-negative `INTEGRAL_MAX` and an integral that is a number, the integral ends in
`[-INTEGRAL_MAX, INTEGRAL_MAX]`. (The sum is a premise: finite operands can overflow binary32, log 1.) -/
def Obligations.PidOutputAndIntegralStayInRange : Prop :=
  ∀ (a : Axis) (s t : State), s.hostInRun = false → exec (.pidRun a) s = .next t → t.op.status = .ok →
    let p := (s.axis a).pid
    let q := (t.axis a).pid
    let error := Num.fsub s.op.args.w1 s.op.args.w0
    (Num.isFinite p.satLow = true → Num.isFinite p.satHigh = true → Num.fle p.satLow p.satHigh = true →
      Num.isFinite (Num.fmul p.deadbandPct s.params.dbScale) = true →
      Num.isNaN (Num.fadd (Num.fadd (Num.fmul p.kp error) (Num.fmul p.ki q.integralAccum))
        (Num.fmul p.kd q.filtDeriv)) = false →
      t.op.res.w0 = q.lastOutput ∧ Num.fle p.satLow q.lastOutput = true ∧
        Num.fle q.lastOutput p.satHigh = true) ∧
    (p.pidInit = true → Num.fle zeroF p.integralMax = true → Num.isNaN q.integralAccum = false →
      Num.fle (Num.fneg p.integralMax) q.integralAccum = true ∧
        Num.fle q.integralAccum p.integralMax = true)

/-! ### Slots, FIFO, motor output -/

/-- R181, R182, R68: `SLOT.PUT` stores value and valid bit together (`HOME_REQ` keeps bit 0 only), in run mode
from the host to `HOME_REQ` only; `SLOT.GET` answers both, in either mode, and changes nothing. -/
def Obligations.SlotsHoldTheLatestValue : Prop :=
  ∀ (k : Slot) (s : State),
    (s.hostInRun = false ∨ k = .homeReq →
      ∃ t, exec (.slotPut k) s = .next t ∧ Answers t .ok {} ∧ (t.slot k).valid = true ∧
        (k ≠ .homeReq → (t.slot k).val = s.op.args.w0) ∧
        (k = .homeReq → (t.slot k).val = if s.op.args.w0.getLsbD 0 then 1 else 0) ∧
        Frame { reg := slotRegs k } s t) ∧
    (∃ t, exec (.slotGet k) s = .next t ∧
      Answers t .ok { w0 := (s.slot k).val, w1 := if (s.slot k).valid then 1 else 0 } ∧ Frame {} s t)

/-- R185, R186: `FIFO.PUT` appends the five words below the depth; on a full FIFO it sets `FIFO_FULL` and, by
the policy, answers `FULL` or drops the oldest entry; `FIFO.GET` answers and removes the oldest entry, or
answers `EMPTY`. -/
def Obligations.FifoPutAndGet : Prop :=
  ∀ s : State,
    let e : Command := { x := s.op.args.w0, y := s.op.args.w1, s := s.op.args.w2, f := s.op.args.w3,
                         moveType := s.op.args.w4 }
    (s.fifo.length < s.params.cmdFifoDepth →
      ∃ t, exec .fifoPut s = .next t ∧ Answers t .ok {} ∧ t.fifo = s.fifo ++ [e] ∧
        Frame { reg := [.fifoCount], fifo := true } s t) ∧
    (s.params.cmdFifoDepth ≤ s.fifo.length → s.params.fullPolicy = .reject →
      ∃ t, exec .fifoPut s = .next t ∧ Rejects s t .full .fifoFull) ∧
    (s.params.cmdFifoDepth ≤ s.fifo.length → s.params.fullPolicy = .dropOldest →
      ∃ t, exec .fifoPut s = .next t ∧ Answers t .ok {} ∧ t.fifo = s.fifo.drop 1 ++ [e] ∧
        t.flag .fifoFull = true ∧
        Frame { reg := [.fifoCount], fifo := true, flag := [.fifoFull] } s t) ∧
    (s.hostInRun = false → s.fifo = [] →
      ∃ t, exec .fifoGet s = .next t ∧ Answers t .empty {} ∧ Frame {} s t) ∧
    (∀ c q, s.hostInRun = false → s.fifo = c :: q →
      ∃ t, exec .fifoGet s = .next t ∧ Answers t .ok (wordsOf c) ∧ t.fifo = q ∧
        Frame { reg := [.fifoCount], fifo := true } s t)

/-- R69: entries come out in the order accepted, each once: of a queue and the entries put behind it without
overflow, get number `n + 1` answers entry `n`. -/
def Obligations.FifoPreservesInsertionOrder : Prop :=
  ∀ (s : State) (cs : List Command) (n : Nat) (c : Command) (rest : List Event),
    s.schedEn = false → s.fifo.length + cs.length ≤ s.params.cmdFifoDepth →
    (s.fifo ++ cs)[n]? = some c →
    s.pending = cs.map (fun c => hostEvent .fifoPut (wordsOf c)) ++
      List.replicate (n + 1) (hostEvent .fifoGet {}) ++ rest →
    ∃ t, runSteps (cs.length + (n + 1)) s = .next t ∧ t.pending = rest ∧ Answers t .ok (wordsOf c) ∧
      t.fifo = (s.fifo ++ cs).drop (n + 1)

/-- R218, R43: `MOT.OUT` drives the pattern unchanged on the axis's output with one strobe and changes no
register; the strobe has ended when the next event is applied, and the value stays (log 8). -/
def Obligations.MotorOutputDrivesThePattern : Prop :=
  (∀ (a : Axis) (s : State), s.hostInRun = false →
    ∃ t, exec (.motOut a) s = .next t ∧ Answers t .ok {} ∧ (t.axis a).dutyOut = s.op.args.w0 ∧
      (t.axis a).dutyStb = true ∧ Frame { duty := [a] } s t) ∧
  ∀ (s : State) (a : Axis),
    ((takeEvent s).axis a).dutyStb = false ∧ ((takeEvent s).axis a).dutyOut = (s.axis a).dutyOut

/-! ### Scheduler and tasks -/

/-- R201, R205: a TICK changes nothing in configuration mode; in run mode it advances `SCHED_TIME`, and each
task whose `WAKE` it reaches is released, or, still ready, keeps its place with `OVERRUN` set. -/
def Obligations.TickReleasesTheDueTasks : Prop :=
  ∀ (s : State) (rest : List Event), s.pending = .tick :: rest →
    (s.schedEn = false → step s = .next (afterTaking s rest)) ∧
    (s.schedEn = true →
      ∃ t, step s = .next t ∧ t.schedTime = s.schedTime + 1 ∧
        (∀ u, s.schedTime + 1 ≠ (s.task u).wake →
          t.task u = s.task u ∧ t.flag (.overrun u) = s.flag (.overrun u)) ∧
        (∀ u, s.schedTime + 1 = (s.task u).wake →
          (t.task u).wake = (s.task u).wake + (s.task u).period ∧ (t.task u).ready = true ∧
          ((s.task u).ready = true →
            (t.task u).tstep = (s.task u).tstep ∧ t.flag (.overrun u) = true) ∧
          ((s.task u).ready = false →
            (t.task u).tstep = 0 ∧ t.flag (.overrun u) = s.flag (.overrun u))) ∧
        Frame { reg := .schedTime :: (taskList.map .wake ++ taskList.map .tstat),
                flag := taskList.map .overrun } (afterTaking s rest) t)

/-- R202: the running task is the ready task of smallest index, in run mode only; only it may take a step, and
where there is none a task step changes nothing (log 5). -/
def Obligations.OnlyTheFirstReadyTaskSteps : Prop :=
  ∀ s : State,
    (∀ u, runningTask s = some u ↔
      s.schedEn = true ∧ (s.task u).ready = true ∧
        ∀ v, taskNum v < taskNum u → (s.task v).ready = false) ∧
    (∀ rest u t, s.pending = .taskStep :: rest → runningTask s = some u → step s = .next t →
      ∀ v, v ≠ u → t.task v = s.task v) ∧
    (∀ rest, s.pending = .taskStep :: rest → runningTask s = none →
      step s = .next (afterTaking s rest))

/-- R49, R206, R85: a step of a task changes only what that task owns: no register outside its table, no
temporary of another task, the FIFO only from `CTRL`, an output only from its motor task; and of the flags it sets
only those of the operations of `CTRL` (no motion, allocation, hold), never `DENIED` or `ILLEGAL`, and clears none.
That the strobe of an output is a bit that has ended after a step which does not drive it is log 8's choice. -/
def Obligations.TasksWriteOnlyWhatTheyOwn : Prop :=
  ∀ (s t : State) (u : TaskId), nextEvent s = .taskStep → runningTask s = some u → step s = .next t →
    (∀ r, ownsReg u r = false → readReg t r = readReg s r) ∧
    (∀ g, t.flag g ≠ s.flag g →
      t.flag g = true ∧ u = .ctrl ∧ ∃ a, g = .noMotion a ∨ g = .alloc a ∨ g = .dtHold a) ∧
    (∀ v, v ≠ u → (t.task v).tmp = (s.task v).tmp) ∧
    (u ≠ .ctrl → t.fifo = s.fifo) ∧
    (∀ a, u ≠ .mot a → (t.axis a).dutyOut = (s.axis a).dutyOut ∧ (t.axis a).dutyStb = false) ∧
    t.params = s.params ∧ t.ports = s.ports

/-- R207, R208, R110: an undisturbed body of `ENC_a` samples the counter, zeroes the position where the home
request is asserted, laps the stopwatch and publishes position, velocity (only for a lap that is not 0) and
delta-time; then the task is not ready. -/
def Obligations.EncoderBodyPublishesTheSample : Prop :=
  ∀ (s : State) (a : Axis) (rest : List Event),
    runningTask s = some (.enc a) → (s.task (.enc a)).tstep = 0 →
    s.pending = List.replicate 9 .taskStep ++ rest →
    let e := encSampled (s.axis a).enc (s.portEnc a)
    let home := (s.slot .homeReq).valid && (s.slot .homeReq).val.getLsbD 0
    let lap := u16Word (s.portSw a - (s.axis a).sw.last)
    let dpos := Num.fmul (Num.fdiv (Num.i2f e.lastDelta.toInt) e.tpr) e.mmpr
    ∃ t, runSteps 9 s = .next t ∧ t.pending = rest ∧
      (t.axis a).enc = (if home then { e with abs := 0 } else e) ∧
      (t.axis a).sw = { count := s.portSw a, last := s.portSw a } ∧
      t.slot (.pos a) =
        { val := Num.fmul (Num.fdiv (Num.i2f (t.axis a).enc.abs.toInt) e.tpr) e.mmpr, valid := true } ∧
      (lap ≠ 0 → t.slot (.vel a) =
        { val := Num.fdiv dpos (Num.fdiv (Num.i2f lap.toNat) millionF), valid := true }) ∧
      (lap = 0 → t.slot (.vel a) = s.slot (.vel a)) ∧
      t.slot (.dt a) = { val := lap, valid := true } ∧
      (t.task (.enc a)).ready = false ∧ (t.task (.enc a)).tstep = 0 ∧
      Frame { reg := [.axis a .encAbs, .axis a .encLastDelta, .axis a .encRaw, .axis a .encLastRaw,
                      .axis a .swCount, .axis a .swLast, .tstat (.enc a)] ++
                     slotRegs (.pos a) ++ slotRegs (.vel a) ++ slotRegs (.dt a),
              tmp := [.enc a] } (afterTaking s rest) t

/-- R217: an undisturbed body of `MOT_a` drives the duty slot's value with one strobe; a slot that is "none"
drives nothing and the output keeps its value; then the task is not ready. -/
def Obligations.MotorBodyDrivesTheDutySlot : Prop :=
  ∀ (s : State) (a : Axis) (rest : List Event),
    runningTask s = some (.mot a) → (s.task (.mot a)).tstep = 0 →
    s.pending = List.replicate 2 .taskStep ++ rest →
    ∃ t, runSteps 2 s = .next t ∧ t.pending = rest ∧
      (t.axis a).dutyOut = (if (s.slot (.duty a)).valid then (s.slot (.duty a)).val
                            else (s.axis a).dutyOut) ∧
      (t.axis a).dutyStb = (s.slot (.duty a)).valid ∧
      (t.task (.mot a)).ready = false ∧ (t.task (.mot a)).tstep = 0 ∧
      Frame { reg := [.tstat (.mot a)], tmp := [.mot a], duty := [a] } (afterTaking s rest) t

/-- R210, R211: an undisturbed body of `CTRL` that starts in the fault state sets the two duty slots to +0.0
and touches nothing else; one that starts with the home request asserted and no fault resets both controllers,
the Kinematics registers and both generators, zeroes both setpoints and both duty slots, and leaves the FIFO. -/
def Obligations.ControlBodyFaultAndHomeSections : Prop :=
  ∀ (s : State) (rest : List Event),
    runningTask s = some .ctrl → (s.task .ctrl).tstep = 0 →
    s.pending = List.replicate 32 .taskStep ++ rest →
    let home := (s.slot .homeReq).valid && (s.slot .homeReq).val.getLsbD 0
    let outs := .tstat .ctrl :: (slotRegs (.duty .A) ++ slotRegs (.duty .B))
    (s.fault = true →
      ∃ t, runSteps 32 s = .next t ∧ t.pending = rest ∧ t.dutySlotsZero = true ∧
        (t.task .ctrl).ready = false ∧ (t.task .ctrl).tstep = 0 ∧
        Frame { reg := outs, tmp := [.ctrl] } (afterTaking s rest) t) ∧
    (s.fault = false → home = true →
      ∃ t, runSteps 32 s = .next t ∧ t.pending = rest ∧ t.dutySlotsZero = true ∧
        t.kin = {} ∧
        (∀ a, ∀ r ∈ homedRegs a, readReg t r = 0) ∧
        (t.task .ctrl).ready = false ∧ (t.task .ctrl).tstep = 0 ∧
        Frame { reg := outs ++ (kinematicsRegs ++ (homedRegs .A ++ homedRegs .B)), tmp := [.ctrl] }
          (afterTaking s rest) t)

/-- R209 steps 10 to 31, R210, R212, R213, R215, R216: an undisturbed body of `CTRL` that starts without a fault
and without the home request asserted has the effect `normalSection` (Safety.lean): with both generators `IDLE` a
queued command is fetched and its segment set up, generated on both axes or dropped on both; a `READY` generator
gives one waypoint to the setpoint and is released with its last one; with a valid position slot `PID.RUN` runs on
that position, the setpoint and `t_now`, and its answer is put to the duty slot. Then the task is not ready. Nothing
differs from that effect but the task's temporaries and `TSTAT`. -/
def Obligations.ControlBodyNormalSection : Prop :=
  ∀ (s : State) (rest : List Event),
    runningTask s = some .ctrl → (s.task .ctrl).tstep = 0 →
    s.pending = List.replicate 32 .taskStep ++ rest →
    s.fault = false → ((s.slot .homeReq).valid && (s.slot .homeReq).val.getLsbD 0) = false →
    ∃ t, runSteps 32 s = .next t ∧ t.pending = rest ∧
      (t.task .ctrl).ready = false ∧ (t.task .ctrl).tstep = 0 ∧
      Frame { reg := [.tstat .ctrl], tmp := [.ctrl] } (normalSection (afterTaking s rest)) t

/-- R234, R216, R255: in run mode and in the fault state, duty slots that hold +0.0 keep it through every
event that leaves the block in that state: a stale duty of a body in progress is never published. It says nothing of
`duty_out`, which follows at the next motor-output bodies, nor of configuration mode, where the host may put to the
duty slots. -/
def Obligations.FaultStateKeepsTheDutySlotsAtZeroInRunMode : Prop :=
  ∀ s t : State, s.schedEn = true → s.fault = true → s.dutySlotsZero = true → step s = .next t →
    t.schedEn = true → t.fault = true → t.dutySlotsZero = true

/-! ### Invariants -/

/-- R46, R47, R214: the state after reset meets both invariants, and so does the state after `SYS.RESET` and
`rst` from any state with legal parameters. (The parameters of State.reset are log 3's.) -/
def Obligations.ResetMeetsTheInvariants : Prop :=
  State.reset.invariant = true ∧ State.reset.oneSegment = true ∧
    ∀ s : State, s.params.wellFormed = true →
      s.restart.invariant = true ∧ s.restart.oneSegment = true

/-- R47 (a), (b), (c), R7, R21, R105, R106, R146, R162, R181, R182, R201, R259: every step keeps the invariant: the
parameters stay legal; the last sampled counter is the one subtracted next, and the two registers of a stopwatch
agree; generator state, count and read index agree and stay within the buffer, and count, read index and slice
count are 0 in `IDLE`; the FIFO stays within its depth; the step index stays in the body; an initial controller has
zero accumulators; "none" slots hold 0 and `HOME_REQ` a bool; no task is ready in configuration mode; in run mode
every release lies between 1 and one period ahead. That a waypoint buffer is a list in a canonical form, which every
step keeps, is the model's representation (log 9, DEDUCED) and no rule of the spec. -/
def Obligations.InvariantIsKept : Prop :=
  ∀ s t : State, s.invariant = true → step s = .next t → t.invariant = true

/-- R214: every step keeps "one segment at a time". -/
def Obligations.OneSegmentIsKept : Prop :=
  ∀ s t : State, s.oneSegment = true → step s = .next t → t.oneSegment = true

/-! ### Arithmetic -/

/-- R18: `f2n` is 0 for NaN and below zero, `2^31 - 1` for +infinity and from `2^31` on, and the floor of the
exact value otherwise. -/
def Obligations.SliceCountIsTheFloor : Prop :=
  ∀ x : Word,
    (Num.isNaN x = true ∨ Num.flt x zeroF = true → Num.f2n x = 0) ∧
    (Num.isNaN x = false → Num.flt x zeroF = false → Num.isInf x = true → Num.f2n x = 2 ^ 31 - 1) ∧
    (Num.isFinite x = true → Num.flt x zeroF = false → 2 ^ 31 ≤ f32Value x →
      Num.f2n x = 2 ^ 31 - 1) ∧
    (Num.isFinite x = true → Num.flt x zeroF = false → f32Value x < 2 ^ 31 →
      (Num.f2n x : Int) = ⌊f32Value x⌋)
end

