-- ==== Sys2Proof/Laws/Buffer.lean ====
section
/-! SUPPORT. The waypoint buffer (spec/10_state.md R37): a write is read back, leaves every other word alone,
and keeps the canonical form. -/

namespace Sys2Proof.Machine

open Sys2Proof

/-- The canonical form from a higher index holds from a lower one. -/
theorem bufWfFrom_mono {lo lo' hi : Nat} {b : RampBuf} (hl : lo' ≤ lo) (h : bufWfFrom lo hi b = true) :
    bufWfFrom lo' hi b = true := by
  cases b with
  | nil => rfl
  | cons p rest =>
    simp only [bufWfFrom, Bool.and_eq_true, decide_eq_true_eq] at h ⊢
    exact ⟨⟨⟨by omega, h.1.1.2⟩, h.1.2⟩, h.2⟩

/-- Below its first index a buffer reads as the reset content. -/
theorem bufRead_below {lo hi : Nat} {b : RampBuf} {i : Nat} (h : bufWfFrom lo hi b = true) (hi' : i < lo) :
    bufRead b i = zeroF := by
  induction b generalizing lo with
  | nil => rfl
  | cons p rest ih =>
    simp only [bufWfFrom, Bool.and_eq_true, decide_eq_true_eq] at h
    rw [bufRead, if_neg (by omega)]
    exact ih h.2 (by omega)

theorem bufRead_bufCons {lo hi i j : Nat} {v : Word} {rest : RampBuf} (h : bufWfFrom lo hi rest = true)
    (hi' : i < lo) : bufRead (bufCons i v rest) j = if j = i then v else bufRead rest j := by
  unfold bufCons
  split
  · rename_i hv
    split
    · rename_i hj; rw [hj, hv, bufRead_below h hi']
    · rfl
  · rw [bufRead]; simp only [eq_comm]

/-- Read after write. -/
theorem bufRead_bufWrite {lo hi : Nat} {b : RampBuf} (i j : Nat) (v : Word)
    (h : bufWfFrom lo hi b = true) : bufRead (bufWrite b i v) j = if j = i then v else bufRead b j := by
  induction b generalizing lo with
  | nil => exact bufRead_bufCons (lo := i + 1) (hi := hi) rfl (by omega)
  | cons p rest ih =>
    have h' := h
    simp only [bufWfFrom, Bool.and_eq_true, decide_eq_true_eq] at h
    rw [bufWrite]
    split
    · refine bufRead_bufCons (lo := p.1) (hi := hi) ?_ (by omega)
      simp only [bufWfFrom, Bool.and_eq_true, decide_eq_true_eq]
      exact ⟨⟨⟨le_refl _, h.1.1.2⟩, h.1.2⟩, h.2⟩
    · split
      · rename_i hip
        rw [bufRead_bufCons h.2 (by omega)]
        split
        · rfl
        · rw [bufRead, if_neg (by omega)]
      · rw [bufRead, bufRead, ih h.2]
        by_cases hj : j = i
        · have : p.1 ≠ j := by omega
          simp [hj]; omega
        · simp [hj]

theorem bufWfFrom_bufCons {lo hi i : Nat} {v : Word} {rest : RampBuf} (h : bufWfFrom (i + 1) hi rest = true)
    (hl : lo ≤ i) (hh : i < hi) : bufWfFrom lo hi (bufCons i v rest) = true := by
  unfold bufCons
  split
  · exact bufWfFrom_mono (by omega) h
  · simp_all [bufWfFrom]

/-- A write keeps the canonical form. -/
theorem bufWfFrom_bufWrite {lo hi i : Nat} {b : RampBuf} (v : Word) (h : bufWfFrom lo hi b = true)
    (hl : lo ≤ i) (hh : i < hi) : bufWfFrom lo hi (bufWrite b i v) = true := by
  induction b generalizing lo with
  | nil => exact bufWfFrom_bufCons rfl hl hh
  | cons p rest ih =>
    have h' := h
    simp only [bufWfFrom, Bool.and_eq_true, decide_eq_true_eq] at h
    rw [bufWrite]
    split
    · refine bufWfFrom_bufCons ?_ hl hh
      simp only [bufWfFrom, Bool.and_eq_true, decide_eq_true_eq]
      exact ⟨⟨⟨by omega, h.1.1.2⟩, h.1.2⟩, h.2⟩
    · split
      · rename_i hip
        exact bufWfFrom_bufCons (hip ▸ h.2) hl hh
      · simp only [bufWfFrom, Bool.and_eq_true, decide_eq_true_eq]
        exact ⟨h.1, ih h.2 (by omega)⟩

theorem bufWf_bufWrite {cap i : Nat} {b : RampBuf} (v : Word) (h : bufWf cap b = true) (hh : i < cap) :
    bufWf cap (bufWrite b i v) = true := bufWfFrom_bufWrite v h (Nat.zero_le _) hh

/-- The reset buffers have the canonical form. -/
theorem bufWf_reset (a : Axis) : bufWf State.reset.params.rampCap (State.reset.axis a).ramp.buf = true := by
  cases a <;> rfl

/-- The interpolated waypoints keep the canonical form. -/
theorem bufWf_fillWaypoints {cap : Nat} {r : RampRegs} (h : bufWf cap r.buf = true) :
    ∀ m, m ≤ cap → bufWf cap (fillWaypoints r m) = true
  | 0, _ => h
  | m + 1, hm => bufWf_bufWrite _ (bufWf_fillWaypoints h m (by omega)) (by omega)

/-- The interpolated waypoints, word by word. -/
theorem bufRead_fillWaypoints {cap : Nat} {r : RampRegs} (h : bufWf cap r.buf = true) (j : Nat) :
    ∀ m, m ≤ cap → bufRead (fillWaypoints r m) j = if j < m then waypoint r j else bufRead r.buf j
  | 0, _ => by simp [fillWaypoints]
  | m + 1, hm => by
    rw [fillWaypoints, bufRead_bufWrite m j _ (bufWf_fillWaypoints h m (by omega)),
      bufRead_fillWaypoints h j m (by omega)]
    grind

/-- The generated buffer, word by word (spec/42_ramp.md R144). -/
theorem bufRead_generated {cap : Nat} {r : RampRegs} (h : bufWf cap r.buf = true)
    (hc : r.count.toNat ≤ cap) (j : Nat) :
    bufRead (generated r) j =
      if j = r.count.toNat - 1 then r.cur
      else if j < r.count.toNat - 1 then waypoint r j
      else bufRead r.buf j := by
  rw [generated, bufRead_bufWrite _ _ _ (bufWf_fillWaypoints h _ (by omega)),
    bufRead_fillWaypoints h j _ (by omega)]

/-- The generated buffer keeps the canonical form. -/
theorem bufWf_generated {cap : Nat} {r : RampRegs} (h : bufWf cap r.buf = true)
    (h1 : 1 ≤ r.count.toNat) (hc : r.count.toNat ≤ cap) : bufWf cap (generated r) = true :=
  bufWf_bufWrite _ (bufWf_fillWaypoints h _ (by omega)) (by omega)

end Sys2Proof.Machine
end

