-- ==== Sys2Proof/Laws/Encoding.lean ====
section
/-! SUPPORT. The fields of a word (spec/30_encoding.md R80) and the selectors: packing and splitting are
inverse, and each format's decoder read back from its parts. -/

namespace Sys2Proof

/-- Splitting a packed word gives its fields back. -/
theorem splitWord_packWord (r : RawOp) : splitWord (packWord r) = r := by
  rcases r with ⟨op, sel, reg, zero⟩
  simp only [splitWord, packWord, RawOp.mk.injEq]
  refine ⟨?_, ?_, ?_, ?_⟩ <;>
    (apply BitVec.eq_of_getLsbD_eq; intro i hi
     simp only [BitVec.getLsbD_append, BitVec.getLsbD_extractLsb']
     grind)

/-- Packing the fields of a word gives it back. -/
theorem packWord_splitWord (w : Word) : packWord (splitWord w) = w := by
  apply BitVec.eq_of_getLsbD_eq
  intro i hi
  simp only [splitWord, packWord, BitVec.getLsbD_append, BitVec.getLsbD_extractLsb']
  grind

/-- The axis of an axis's selector. -/
@[simp] theorem axisOfSel_axisSel (a : Axis) : axisOfSel (axisSel a) = some a := by cases a <;> rfl

/-- The slot of a slot's selector. -/
@[simp] theorem slotOfSel_slotSel (k : Slot) : slotOfSel (slotSel k) = some k := by
  rcases k with (_ | _) | (_ | _) | (_ | _) | _ | (_ | _) <;> rfl

/-- A selector that names an axis is that axis's selector. -/
theorem axisSel_of_axisOfSel {sel : BitVec 4} {a : Axis} (h : axisOfSel sel = some a) :
    sel = axisSel a := by
  revert h; cases a <;> revert sel <;> decide

/-- A selector that names a slot is that slot's selector. -/
theorem slotSel_of_slotOfSel {sel : BitVec 4} {k : Slot} (h : slotOfSel sel = some k) :
    sel = slotSel k := by
  revert h; rcases k with (_ | _) | (_ | _) | (_ | _) | _ | (_ | _) <;> revert sel <;> decide

/-- What the format N decoder accepts. -/
theorem decodeN_ok {r : RawOp} {i j : Instr} : decodeN r i = .ok j ↔ r.sel = 0 ∧ r.reg = 0 ∧ i = j := by
  unfold decodeN; split
  · simp_all
  · split <;> simp_all

/-- What the format A decoder accepts. -/
theorem decodeA_ok {r : RawOp} {f : Axis → Instr} {j : Instr} :
    decodeA r f = .ok j ↔ r.reg = 0 ∧ ∃ a, r.sel = axisSel a ∧ f a = j := by
  unfold decodeA; split
  · simp_all
  · constructor
    · intro h
      split at h
      · rename_i a ha; exact ⟨by simp_all, a, axisSel_of_axisOfSel ha, by simpa using h⟩
      · simp at h
    · rintro ⟨-, a, ha, rfl⟩; rw [ha, axisOfSel_axisSel]

/-- What the format S decoder accepts. -/
theorem decodeS_ok {r : RawOp} {f : Slot → Instr} {j : Instr} :
    decodeS r f = .ok j ↔ r.reg = 0 ∧ ∃ k, r.sel = slotSel k ∧ f k = j := by
  unfold decodeS; split
  · simp_all
  · constructor
    · intro h
      split at h
      · rename_i a ha; exact ⟨by simp_all, a, slotSel_of_slotOfSel ha, by simpa using h⟩
      · simp at h
    · rintro ⟨-, a, ha, rfl⟩; rw [ha, slotOfSel_slotSel]

/-- What the format R decoder accepts. -/
theorem decodeR_ok {r : RawOp} {f : RegAddr → Instr} {j : Instr} :
    decodeR r f = .ok j ↔ r.sel = 0 ∧ f r.reg = j := by
  unfold decodeR; split <;> simp_all

end Sys2Proof
end

