-- ==== Sys2Proof/Laws/State.lean ====
section
/-! SUPPORT. What each named update of State leaves and what it writes, field by field: one lemma per field
per update, so that no later proof unfolds a record update. -/

namespace Sys2Proof.Machine

open Sys2Proof

variable (s : State)

/-! ### setAxis -/

@[simp] theorem setAxis_params (a : Axis) (r : AxisRegs) : (s.setAxis a r).params = s.params := by cases a <;> rfl
@[simp] theorem setAxis_schedEn (a : Axis) (r : AxisRegs) : (s.setAxis a r).schedEn = s.schedEn := by cases a <;> rfl
@[simp] theorem setAxis_fault (a : Axis) (r : AxisRegs) : (s.setAxis a r).fault = s.fault := by cases a <;> rfl
@[simp] theorem setAxis_flags (a : Axis) (r : AxisRegs) : (s.setAxis a r).flags = s.flags := by cases a <;> rfl
@[simp] theorem setAxis_schedTime (a : Axis) (r : AxisRegs) : (s.setAxis a r).schedTime = s.schedTime := by cases a <;> rfl
@[simp] theorem setAxis_kin (a : Axis) (r : AxisRegs) : (s.setAxis a r).kin = s.kin := by cases a <;> rfl
@[simp] theorem setAxis_fifo (a : Axis) (r : AxisRegs) : (s.setAxis a r).fifo = s.fifo := by cases a <;> rfl
@[simp] theorem setAxis_ports (a : Axis) (r : AxisRegs) : (s.setAxis a r).ports = s.ports := by cases a <;> rfl
@[simp] theorem setAxis_op (a : Axis) (r : AxisRegs) : (s.setAxis a r).op = s.op := by cases a <;> rfl
@[simp] theorem setAxis_pending (a : Axis) (r : AxisRegs) : (s.setAxis a r).pending = s.pending := by cases a <;> rfl
@[simp] theorem setAxis_envIndex (a : Axis) (r : AxisRegs) : (s.setAxis a r).envIndex = s.envIndex := by cases a <;> rfl
@[simp] theorem setAxis_task (a : Axis) (r : AxisRegs) (u : TaskId) : (s.setAxis a r).task u = s.task u := by rcases u with (_ | _) | _ | (_ | _) <;> cases a <;> rfl
@[simp] theorem setAxis_slot (a : Axis) (r : AxisRegs) (l : Slot) : (s.setAxis a r).slot l = s.slot l := by rcases l with (_ | _) | (_ | _) | (_ | _) | _ | (_ | _) <;> cases a <;> rfl
@[simp] theorem setAxis_portEnc (a : Axis) (r : AxisRegs) (b : Axis) : (s.setAxis a r).portEnc b = s.portEnc b := by cases b <;> cases a <;> rfl
@[simp] theorem setAxis_portSw (a : Axis) (r : AxisRegs) (b : Axis) : (s.setAxis a r).portSw b = s.portSw b := by cases b <;> cases a <;> rfl
@[simp] theorem setAxis_hostInRun (a : Axis) (r : AxisRegs) : (s.setAxis a r).hostInRun = s.hostInRun := by cases a <;> rfl

/-! ### setTask -/

@[simp] theorem setTask_params (t : TaskId) (r : TaskRegs) : (s.setTask t r).params = s.params := by rcases t with (_ | _) | _ | (_ | _) <;> rfl
@[simp] theorem setTask_schedEn (t : TaskId) (r : TaskRegs) : (s.setTask t r).schedEn = s.schedEn := by rcases t with (_ | _) | _ | (_ | _) <;> rfl
@[simp] theorem setTask_fault (t : TaskId) (r : TaskRegs) : (s.setTask t r).fault = s.fault := by rcases t with (_ | _) | _ | (_ | _) <;> rfl
@[simp] theorem setTask_flags (t : TaskId) (r : TaskRegs) : (s.setTask t r).flags = s.flags := by rcases t with (_ | _) | _ | (_ | _) <;> rfl
@[simp] theorem setTask_schedTime (t : TaskId) (r : TaskRegs) : (s.setTask t r).schedTime = s.schedTime := by rcases t with (_ | _) | _ | (_ | _) <;> rfl
@[simp] theorem setTask_kin (t : TaskId) (r : TaskRegs) : (s.setTask t r).kin = s.kin := by rcases t with (_ | _) | _ | (_ | _) <;> rfl
@[simp] theorem setTask_fifo (t : TaskId) (r : TaskRegs) : (s.setTask t r).fifo = s.fifo := by rcases t with (_ | _) | _ | (_ | _) <;> rfl
@[simp] theorem setTask_ports (t : TaskId) (r : TaskRegs) : (s.setTask t r).ports = s.ports := by rcases t with (_ | _) | _ | (_ | _) <;> rfl
@[simp] theorem setTask_op (t : TaskId) (r : TaskRegs) : (s.setTask t r).op = s.op := by rcases t with (_ | _) | _ | (_ | _) <;> rfl
@[simp] theorem setTask_pending (t : TaskId) (r : TaskRegs) : (s.setTask t r).pending = s.pending := by rcases t with (_ | _) | _ | (_ | _) <;> rfl
@[simp] theorem setTask_envIndex (t : TaskId) (r : TaskRegs) : (s.setTask t r).envIndex = s.envIndex := by rcases t with (_ | _) | _ | (_ | _) <;> rfl
@[simp] theorem setTask_axis (t : TaskId) (r : TaskRegs) (b : Axis) : (s.setTask t r).axis b = s.axis b := by cases b <;> rcases t with (_ | _) | _ | (_ | _) <;> rfl
@[simp] theorem setTask_slot (t : TaskId) (r : TaskRegs) (l : Slot) : (s.setTask t r).slot l = s.slot l := by rcases l with (_ | _) | (_ | _) | (_ | _) | _ | (_ | _) <;> rcases t with (_ | _) | _ | (_ | _) <;> rfl
@[simp] theorem setTask_portEnc (t : TaskId) (r : TaskRegs) (b : Axis) : (s.setTask t r).portEnc b = s.portEnc b := by cases b <;> rcases t with (_ | _) | _ | (_ | _) <;> rfl
@[simp] theorem setTask_portSw (t : TaskId) (r : TaskRegs) (b : Axis) : (s.setTask t r).portSw b = s.portSw b := by cases b <;> rcases t with (_ | _) | _ | (_ | _) <;> rfl
@[simp] theorem setTask_hostInRun (t : TaskId) (r : TaskRegs) : (s.setTask t r).hostInRun = s.hostInRun := by rcases t with (_ | _) | _ | (_ | _) <;> rfl

/-! ### setSlot -/

@[simp] theorem setSlot_params (k : Slot) (c : SlotCell) : (s.setSlot k c).params = s.params := by rcases k with (_ | _) | (_ | _) | (_ | _) | _ | (_ | _) <;> rfl
@[simp] theorem setSlot_schedEn (k : Slot) (c : SlotCell) : (s.setSlot k c).schedEn = s.schedEn := by rcases k with (_ | _) | (_ | _) | (_ | _) | _ | (_ | _) <;> rfl
@[simp] theorem setSlot_fault (k : Slot) (c : SlotCell) : (s.setSlot k c).fault = s.fault := by rcases k with (_ | _) | (_ | _) | (_ | _) | _ | (_ | _) <;> rfl
@[simp] theorem setSlot_flags (k : Slot) (c : SlotCell) : (s.setSlot k c).flags = s.flags := by rcases k with (_ | _) | (_ | _) | (_ | _) | _ | (_ | _) <;> rfl
@[simp] theorem setSlot_schedTime (k : Slot) (c : SlotCell) : (s.setSlot k c).schedTime = s.schedTime := by rcases k with (_ | _) | (_ | _) | (_ | _) | _ | (_ | _) <;> rfl
@[simp] theorem setSlot_kin (k : Slot) (c : SlotCell) : (s.setSlot k c).kin = s.kin := by rcases k with (_ | _) | (_ | _) | (_ | _) | _ | (_ | _) <;> rfl
@[simp] theorem setSlot_fifo (k : Slot) (c : SlotCell) : (s.setSlot k c).fifo = s.fifo := by rcases k with (_ | _) | (_ | _) | (_ | _) | _ | (_ | _) <;> rfl
@[simp] theorem setSlot_ports (k : Slot) (c : SlotCell) : (s.setSlot k c).ports = s.ports := by rcases k with (_ | _) | (_ | _) | (_ | _) | _ | (_ | _) <;> rfl
@[simp] theorem setSlot_op (k : Slot) (c : SlotCell) : (s.setSlot k c).op = s.op := by rcases k with (_ | _) | (_ | _) | (_ | _) | _ | (_ | _) <;> rfl
@[simp] theorem setSlot_pending (k : Slot) (c : SlotCell) : (s.setSlot k c).pending = s.pending := by rcases k with (_ | _) | (_ | _) | (_ | _) | _ | (_ | _) <;> rfl
@[simp] theorem setSlot_envIndex (k : Slot) (c : SlotCell) : (s.setSlot k c).envIndex = s.envIndex := by rcases k with (_ | _) | (_ | _) | (_ | _) | _ | (_ | _) <;> rfl
@[simp] theorem setSlot_axis (k : Slot) (c : SlotCell) (b : Axis) : (s.setSlot k c).axis b = s.axis b := by cases b <;> rcases k with (_ | _) | (_ | _) | (_ | _) | _ | (_ | _) <;> rfl
@[simp] theorem setSlot_task (k : Slot) (c : SlotCell) (u : TaskId) : (s.setSlot k c).task u = s.task u := by rcases u with (_ | _) | _ | (_ | _) <;> rcases k with (_ | _) | (_ | _) | (_ | _) | _ | (_ | _) <;> rfl
@[simp] theorem setSlot_portEnc (k : Slot) (c : SlotCell) (b : Axis) : (s.setSlot k c).portEnc b = s.portEnc b := by cases b <;> rcases k with (_ | _) | (_ | _) | (_ | _) | _ | (_ | _) <;> rfl
@[simp] theorem setSlot_portSw (k : Slot) (c : SlotCell) (b : Axis) : (s.setSlot k c).portSw b = s.portSw b := by cases b <;> rcases k with (_ | _) | (_ | _) | (_ | _) | _ | (_ | _) <;> rfl
@[simp] theorem setSlot_hostInRun (k : Slot) (c : SlotCell) : (s.setSlot k c).hostInRun = s.hostInRun := by rcases k with (_ | _) | (_ | _) | (_ | _) | _ | (_ | _) <;> rfl

/-! ### setFlags -/

@[simp] theorem setFlags_params (f : Half) : (s.setFlags f).params = s.params := rfl
@[simp] theorem setFlags_schedEn (f : Half) : (s.setFlags f).schedEn = s.schedEn := rfl
@[simp] theorem setFlags_fault (f : Half) : (s.setFlags f).fault = s.fault := rfl
@[simp] theorem setFlags_flags (f : Half) : (s.setFlags f).flags = f := rfl
@[simp] theorem setFlags_schedTime (f : Half) : (s.setFlags f).schedTime = s.schedTime := rfl
@[simp] theorem setFlags_kin (f : Half) : (s.setFlags f).kin = s.kin := rfl
@[simp] theorem setFlags_fifo (f : Half) : (s.setFlags f).fifo = s.fifo := rfl
@[simp] theorem setFlags_ports (f : Half) : (s.setFlags f).ports = s.ports := rfl
@[simp] theorem setFlags_op (f : Half) : (s.setFlags f).op = s.op := rfl
@[simp] theorem setFlags_pending (f : Half) : (s.setFlags f).pending = s.pending := rfl
@[simp] theorem setFlags_envIndex (f : Half) : (s.setFlags f).envIndex = s.envIndex := rfl
@[simp] theorem setFlags_axis (f : Half) (b : Axis) : (s.setFlags f).axis b = s.axis b := by cases b <;> rfl
@[simp] theorem setFlags_task (f : Half) (u : TaskId) : (s.setFlags f).task u = s.task u := by rcases u with (_ | _) | _ | (_ | _) <;> rfl
@[simp] theorem setFlags_slot (f : Half) (l : Slot) : (s.setFlags f).slot l = s.slot l := by rcases l with (_ | _) | (_ | _) | (_ | _) | _ | (_ | _) <;> rfl
@[simp] theorem setFlags_portEnc (f : Half) (b : Axis) : (s.setFlags f).portEnc b = s.portEnc b := by cases b <;> rfl
@[simp] theorem setFlags_portSw (f : Half) (b : Axis) : (s.setFlags f).portSw b = s.portSw b := by cases b <;> rfl
@[simp] theorem setFlags_hostInRun (f : Half) : (s.setFlags f).hostInRun = s.hostInRun := rfl

/-! ### setSchedEn -/

@[simp] theorem setSchedEn_params (v : Bool) : (s.setSchedEn v).params = s.params := rfl
@[simp] theorem setSchedEn_schedEn (v : Bool) : (s.setSchedEn v).schedEn = v := rfl
@[simp] theorem setSchedEn_fault (v : Bool) : (s.setSchedEn v).fault = s.fault := rfl
@[simp] theorem setSchedEn_flags (v : Bool) : (s.setSchedEn v).flags = s.flags := rfl
@[simp] theorem setSchedEn_schedTime (v : Bool) : (s.setSchedEn v).schedTime = s.schedTime := rfl
@[simp] theorem setSchedEn_kin (v : Bool) : (s.setSchedEn v).kin = s.kin := rfl
@[simp] theorem setSchedEn_fifo (v : Bool) : (s.setSchedEn v).fifo = s.fifo := rfl
@[simp] theorem setSchedEn_ports (v : Bool) : (s.setSchedEn v).ports = s.ports := rfl
@[simp] theorem setSchedEn_op (v : Bool) : (s.setSchedEn v).op = s.op := rfl
@[simp] theorem setSchedEn_pending (v : Bool) : (s.setSchedEn v).pending = s.pending := rfl
@[simp] theorem setSchedEn_envIndex (v : Bool) : (s.setSchedEn v).envIndex = s.envIndex := rfl
@[simp] theorem setSchedEn_axis (v : Bool) (b : Axis) : (s.setSchedEn v).axis b = s.axis b := by cases b <;> rfl
@[simp] theorem setSchedEn_task (v : Bool) (u : TaskId) : (s.setSchedEn v).task u = s.task u := by rcases u with (_ | _) | _ | (_ | _) <;> rfl
@[simp] theorem setSchedEn_slot (v : Bool) (l : Slot) : (s.setSchedEn v).slot l = s.slot l := by rcases l with (_ | _) | (_ | _) | (_ | _) | _ | (_ | _) <;> rfl
@[simp] theorem setSchedEn_portEnc (v : Bool) (b : Axis) : (s.setSchedEn v).portEnc b = s.portEnc b := by cases b <;> rfl
@[simp] theorem setSchedEn_portSw (v : Bool) (b : Axis) : (s.setSchedEn v).portSw b = s.portSw b := by cases b <;> rfl

/-! ### setFault -/

@[simp] theorem setFault_params (v : Bool) : (s.setFault v).params = s.params := rfl
@[simp] theorem setFault_schedEn (v : Bool) : (s.setFault v).schedEn = s.schedEn := rfl
@[simp] theorem setFault_fault (v : Bool) : (s.setFault v).fault = v := rfl
@[simp] theorem setFault_flags (v : Bool) : (s.setFault v).flags = s.flags := rfl
@[simp] theorem setFault_schedTime (v : Bool) : (s.setFault v).schedTime = s.schedTime := rfl
@[simp] theorem setFault_kin (v : Bool) : (s.setFault v).kin = s.kin := rfl
@[simp] theorem setFault_fifo (v : Bool) : (s.setFault v).fifo = s.fifo := rfl
@[simp] theorem setFault_ports (v : Bool) : (s.setFault v).ports = s.ports := rfl
@[simp] theorem setFault_op (v : Bool) : (s.setFault v).op = s.op := rfl
@[simp] theorem setFault_pending (v : Bool) : (s.setFault v).pending = s.pending := rfl
@[simp] theorem setFault_envIndex (v : Bool) : (s.setFault v).envIndex = s.envIndex := rfl
@[simp] theorem setFault_axis (v : Bool) (b : Axis) : (s.setFault v).axis b = s.axis b := by cases b <;> rfl
@[simp] theorem setFault_task (v : Bool) (u : TaskId) : (s.setFault v).task u = s.task u := by rcases u with (_ | _) | _ | (_ | _) <;> rfl
@[simp] theorem setFault_slot (v : Bool) (l : Slot) : (s.setFault v).slot l = s.slot l := by rcases l with (_ | _) | (_ | _) | (_ | _) | _ | (_ | _) <;> rfl
@[simp] theorem setFault_portEnc (v : Bool) (b : Axis) : (s.setFault v).portEnc b = s.portEnc b := by cases b <;> rfl
@[simp] theorem setFault_portSw (v : Bool) (b : Axis) : (s.setFault v).portSw b = s.portSw b := by cases b <;> rfl
@[simp] theorem setFault_hostInRun (v : Bool) : (s.setFault v).hostInRun = s.hostInRun := rfl

/-! ### setTime -/

@[simp] theorem setTime_params (w : Word) : (s.setTime w).params = s.params := rfl
@[simp] theorem setTime_schedEn (w : Word) : (s.setTime w).schedEn = s.schedEn := rfl
@[simp] theorem setTime_fault (w : Word) : (s.setTime w).fault = s.fault := rfl
@[simp] theorem setTime_flags (w : Word) : (s.setTime w).flags = s.flags := rfl
@[simp] theorem setTime_schedTime (w : Word) : (s.setTime w).schedTime = w := rfl
@[simp] theorem setTime_kin (w : Word) : (s.setTime w).kin = s.kin := rfl
@[simp] theorem setTime_fifo (w : Word) : (s.setTime w).fifo = s.fifo := rfl
@[simp] theorem setTime_ports (w : Word) : (s.setTime w).ports = s.ports := rfl
@[simp] theorem setTime_op (w : Word) : (s.setTime w).op = s.op := rfl
@[simp] theorem setTime_pending (w : Word) : (s.setTime w).pending = s.pending := rfl
@[simp] theorem setTime_envIndex (w : Word) : (s.setTime w).envIndex = s.envIndex := rfl
@[simp] theorem setTime_axis (w : Word) (b : Axis) : (s.setTime w).axis b = s.axis b := by cases b <;> rfl
@[simp] theorem setTime_task (w : Word) (u : TaskId) : (s.setTime w).task u = s.task u := by rcases u with (_ | _) | _ | (_ | _) <;> rfl
@[simp] theorem setTime_slot (w : Word) (l : Slot) : (s.setTime w).slot l = s.slot l := by rcases l with (_ | _) | (_ | _) | (_ | _) | _ | (_ | _) <;> rfl
@[simp] theorem setTime_portEnc (w : Word) (b : Axis) : (s.setTime w).portEnc b = s.portEnc b := by cases b <;> rfl
@[simp] theorem setTime_portSw (w : Word) (b : Axis) : (s.setTime w).portSw b = s.portSw b := by cases b <;> rfl
@[simp] theorem setTime_hostInRun (w : Word) : (s.setTime w).hostInRun = s.hostInRun := rfl

/-! ### setKin -/

@[simp] theorem setKin_params (k : KinRegs) : (s.setKin k).params = s.params := rfl
@[simp] theorem setKin_schedEn (k : KinRegs) : (s.setKin k).schedEn = s.schedEn := rfl
@[simp] theorem setKin_fault (k : KinRegs) : (s.setKin k).fault = s.fault := rfl
@[simp] theorem setKin_flags (k : KinRegs) : (s.setKin k).flags = s.flags := rfl
@[simp] theorem setKin_schedTime (k : KinRegs) : (s.setKin k).schedTime = s.schedTime := rfl
@[simp] theorem setKin_kin (k : KinRegs) : (s.setKin k).kin = k := rfl
@[simp] theorem setKin_fifo (k : KinRegs) : (s.setKin k).fifo = s.fifo := rfl
@[simp] theorem setKin_ports (k : KinRegs) : (s.setKin k).ports = s.ports := rfl
@[simp] theorem setKin_op (k : KinRegs) : (s.setKin k).op = s.op := rfl
@[simp] theorem setKin_pending (k : KinRegs) : (s.setKin k).pending = s.pending := rfl
@[simp] theorem setKin_envIndex (k : KinRegs) : (s.setKin k).envIndex = s.envIndex := rfl
@[simp] theorem setKin_axis (k : KinRegs) (b : Axis) : (s.setKin k).axis b = s.axis b := by cases b <;> rfl
@[simp] theorem setKin_task (k : KinRegs) (u : TaskId) : (s.setKin k).task u = s.task u := by rcases u with (_ | _) | _ | (_ | _) <;> rfl
@[simp] theorem setKin_slot (k : KinRegs) (l : Slot) : (s.setKin k).slot l = s.slot l := by rcases l with (_ | _) | (_ | _) | (_ | _) | _ | (_ | _) <;> rfl
@[simp] theorem setKin_portEnc (k : KinRegs) (b : Axis) : (s.setKin k).portEnc b = s.portEnc b := by cases b <;> rfl
@[simp] theorem setKin_portSw (k : KinRegs) (b : Axis) : (s.setKin k).portSw b = s.portSw b := by cases b <;> rfl
@[simp] theorem setKin_hostInRun (k : KinRegs) : (s.setKin k).hostInRun = s.hostInRun := rfl

/-! ### setFifo -/

@[simp] theorem setFifo_params (q : List Command) : (s.setFifo q).params = s.params := rfl
@[simp] theorem setFifo_schedEn (q : List Command) : (s.setFifo q).schedEn = s.schedEn := rfl
@[simp] theorem setFifo_fault (q : List Command) : (s.setFifo q).fault = s.fault := rfl
@[simp] theorem setFifo_flags (q : List Command) : (s.setFifo q).flags = s.flags := rfl
@[simp] theorem setFifo_schedTime (q : List Command) : (s.setFifo q).schedTime = s.schedTime := rfl
@[simp] theorem setFifo_kin (q : List Command) : (s.setFifo q).kin = s.kin := rfl
@[simp] theorem setFifo_fifo (q : List Command) : (s.setFifo q).fifo = q := rfl
@[simp] theorem setFifo_ports (q : List Command) : (s.setFifo q).ports = s.ports := rfl
@[simp] theorem setFifo_op (q : List Command) : (s.setFifo q).op = s.op := rfl
@[simp] theorem setFifo_pending (q : List Command) : (s.setFifo q).pending = s.pending := rfl
@[simp] theorem setFifo_envIndex (q : List Command) : (s.setFifo q).envIndex = s.envIndex := rfl
@[simp] theorem setFifo_axis (q : List Command) (b : Axis) : (s.setFifo q).axis b = s.axis b := by cases b <;> rfl
@[simp] theorem setFifo_task (q : List Command) (u : TaskId) : (s.setFifo q).task u = s.task u := by rcases u with (_ | _) | _ | (_ | _) <;> rfl
@[simp] theorem setFifo_slot (q : List Command) (l : Slot) : (s.setFifo q).slot l = s.slot l := by rcases l with (_ | _) | (_ | _) | (_ | _) | _ | (_ | _) <;> rfl
@[simp] theorem setFifo_portEnc (q : List Command) (b : Axis) : (s.setFifo q).portEnc b = s.portEnc b := by cases b <;> rfl
@[simp] theorem setFifo_portSw (q : List Command) (b : Axis) : (s.setFifo q).portSw b = s.portSw b := by cases b <;> rfl
@[simp] theorem setFifo_hostInRun (q : List Command) : (s.setFifo q).hostInRun = s.hostInRun := rfl

/-! ### setPorts -/

@[simp] theorem setPorts_params (p : Ports) : (s.setPorts p).params = s.params := rfl
@[simp] theorem setPorts_schedEn (p : Ports) : (s.setPorts p).schedEn = s.schedEn := rfl
@[simp] theorem setPorts_fault (p : Ports) : (s.setPorts p).fault = s.fault := rfl
@[simp] theorem setPorts_flags (p : Ports) : (s.setPorts p).flags = s.flags := rfl
@[simp] theorem setPorts_schedTime (p : Ports) : (s.setPorts p).schedTime = s.schedTime := rfl
@[simp] theorem setPorts_kin (p : Ports) : (s.setPorts p).kin = s.kin := rfl
@[simp] theorem setPorts_fifo (p : Ports) : (s.setPorts p).fifo = s.fifo := rfl
@[simp] theorem setPorts_ports (p : Ports) : (s.setPorts p).ports = p := rfl
@[simp] theorem setPorts_op (p : Ports) : (s.setPorts p).op = s.op := rfl
@[simp] theorem setPorts_pending (p : Ports) : (s.setPorts p).pending = s.pending := rfl
@[simp] theorem setPorts_envIndex (p : Ports) : (s.setPorts p).envIndex = s.envIndex := rfl
@[simp] theorem setPorts_axis (p : Ports) (b : Axis) : (s.setPorts p).axis b = s.axis b := by cases b <;> rfl
@[simp] theorem setPorts_task (p : Ports) (u : TaskId) : (s.setPorts p).task u = s.task u := by rcases u with (_ | _) | _ | (_ | _) <;> rfl
@[simp] theorem setPorts_slot (p : Ports) (l : Slot) : (s.setPorts p).slot l = s.slot l := by rcases l with (_ | _) | (_ | _) | (_ | _) | _ | (_ | _) <;> rfl
@[simp] theorem setPorts_hostInRun (p : Ports) : (s.setPorts p).hostInRun = s.hostInRun := rfl

/-! ### setPending -/

@[simp] theorem setPending_params (q : List Event) : (s.setPending q).params = s.params := rfl
@[simp] theorem setPending_schedEn (q : List Event) : (s.setPending q).schedEn = s.schedEn := rfl
@[simp] theorem setPending_fault (q : List Event) : (s.setPending q).fault = s.fault := rfl
@[simp] theorem setPending_flags (q : List Event) : (s.setPending q).flags = s.flags := rfl
@[simp] theorem setPending_schedTime (q : List Event) : (s.setPending q).schedTime = s.schedTime := rfl
@[simp] theorem setPending_kin (q : List Event) : (s.setPending q).kin = s.kin := rfl
@[simp] theorem setPending_fifo (q : List Event) : (s.setPending q).fifo = s.fifo := rfl
@[simp] theorem setPending_ports (q : List Event) : (s.setPending q).ports = s.ports := rfl
@[simp] theorem setPending_op (q : List Event) : (s.setPending q).op = s.op := rfl
@[simp] theorem setPending_pending (q : List Event) : (s.setPending q).pending = q := rfl
@[simp] theorem setPending_envIndex (q : List Event) : (s.setPending q).envIndex = s.envIndex := rfl
@[simp] theorem setPending_axis (q : List Event) (b : Axis) : (s.setPending q).axis b = s.axis b := by cases b <;> rfl
@[simp] theorem setPending_task (q : List Event) (u : TaskId) : (s.setPending q).task u = s.task u := by rcases u with (_ | _) | _ | (_ | _) <;> rfl
@[simp] theorem setPending_slot (q : List Event) (l : Slot) : (s.setPending q).slot l = s.slot l := by rcases l with (_ | _) | (_ | _) | (_ | _) | _ | (_ | _) <;> rfl
@[simp] theorem setPending_portEnc (q : List Event) (b : Axis) : (s.setPending q).portEnc b = s.portEnc b := by cases b <;> rfl
@[simp] theorem setPending_portSw (q : List Event) (b : Axis) : (s.setPending q).portSw b = s.portSw b := by cases b <;> rfl
@[simp] theorem setPending_hostInRun (q : List Event) : (s.setPending q).hostInRun = s.hostInRun := rfl

/-! ### setEnvIndex -/

@[simp] theorem setEnvIndex_params (n : Nat) : (s.setEnvIndex n).params = s.params := rfl
@[simp] theorem setEnvIndex_schedEn (n : Nat) : (s.setEnvIndex n).schedEn = s.schedEn := rfl
@[simp] theorem setEnvIndex_fault (n : Nat) : (s.setEnvIndex n).fault = s.fault := rfl
@[simp] theorem setEnvIndex_flags (n : Nat) : (s.setEnvIndex n).flags = s.flags := rfl
@[simp] theorem setEnvIndex_schedTime (n : Nat) : (s.setEnvIndex n).schedTime = s.schedTime := rfl
@[simp] theorem setEnvIndex_kin (n : Nat) : (s.setEnvIndex n).kin = s.kin := rfl
@[simp] theorem setEnvIndex_fifo (n : Nat) : (s.setEnvIndex n).fifo = s.fifo := rfl
@[simp] theorem setEnvIndex_ports (n : Nat) : (s.setEnvIndex n).ports = s.ports := rfl
@[simp] theorem setEnvIndex_op (n : Nat) : (s.setEnvIndex n).op = s.op := rfl
@[simp] theorem setEnvIndex_pending (n : Nat) : (s.setEnvIndex n).pending = s.pending := rfl
@[simp] theorem setEnvIndex_envIndex (n : Nat) : (s.setEnvIndex n).envIndex = n := rfl
@[simp] theorem setEnvIndex_axis (n : Nat) (b : Axis) : (s.setEnvIndex n).axis b = s.axis b := by cases b <;> rfl
@[simp] theorem setEnvIndex_task (n : Nat) (u : TaskId) : (s.setEnvIndex n).task u = s.task u := by rcases u with (_ | _) | _ | (_ | _) <;> rfl
@[simp] theorem setEnvIndex_slot (n : Nat) (l : Slot) : (s.setEnvIndex n).slot l = s.slot l := by rcases l with (_ | _) | (_ | _) | (_ | _) | _ | (_ | _) <;> rfl
@[simp] theorem setEnvIndex_portEnc (n : Nat) (b : Axis) : (s.setEnvIndex n).portEnc b = s.portEnc b := by cases b <;> rfl
@[simp] theorem setEnvIndex_portSw (n : Nat) (b : Axis) : (s.setEnvIndex n).portSw b = s.portSw b := by cases b <;> rfl
@[simp] theorem setEnvIndex_hostInRun (n : Nat) : (s.setEnvIndex n).hostInRun = s.hostInRun := rfl

/-! ### respond -/

@[simp] theorem respond_params (st : Status) (r : Words5) : (s.respond st r).params = s.params := rfl
@[simp] theorem respond_schedEn (st : Status) (r : Words5) : (s.respond st r).schedEn = s.schedEn := rfl
@[simp] theorem respond_fault (st : Status) (r : Words5) : (s.respond st r).fault = s.fault := rfl
@[simp] theorem respond_flags (st : Status) (r : Words5) : (s.respond st r).flags = s.flags := rfl
@[simp] theorem respond_schedTime (st : Status) (r : Words5) : (s.respond st r).schedTime = s.schedTime := rfl
@[simp] theorem respond_kin (st : Status) (r : Words5) : (s.respond st r).kin = s.kin := rfl
@[simp] theorem respond_fifo (st : Status) (r : Words5) : (s.respond st r).fifo = s.fifo := rfl
@[simp] theorem respond_ports (st : Status) (r : Words5) : (s.respond st r).ports = s.ports := rfl
@[simp] theorem respond_op (st : Status) (r : Words5) : (s.respond st r).op = { s.op with status := st, res := r } := rfl
@[simp] theorem respond_pending (st : Status) (r : Words5) : (s.respond st r).pending = s.pending := rfl
@[simp] theorem respond_envIndex (st : Status) (r : Words5) : (s.respond st r).envIndex = s.envIndex := rfl
@[simp] theorem respond_axis (st : Status) (r : Words5) (b : Axis) : (s.respond st r).axis b = s.axis b := by cases b <;> rfl
@[simp] theorem respond_task (st : Status) (r : Words5) (u : TaskId) : (s.respond st r).task u = s.task u := by rcases u with (_ | _) | _ | (_ | _) <;> rfl
@[simp] theorem respond_slot (st : Status) (r : Words5) (l : Slot) : (s.respond st r).slot l = s.slot l := by rcases l with (_ | _) | (_ | _) | (_ | _) | _ | (_ | _) <;> rfl
@[simp] theorem respond_portEnc (st : Status) (r : Words5) (b : Axis) : (s.respond st r).portEnc b = s.portEnc b := by cases b <;> rfl
@[simp] theorem respond_portSw (st : Status) (r : Words5) (b : Axis) : (s.respond st r).portSw b = s.portSw b := by cases b <;> rfl
@[simp] theorem respond_hostInRun (st : Status) (r : Words5) : (s.respond st r).hostInRun = s.hostInRun := rfl

/-! ### issue -/

@[simp] theorem issue_params (who : Agent) (args : Words5) : (s.issue who args).params = s.params := rfl
@[simp] theorem issue_schedEn (who : Agent) (args : Words5) : (s.issue who args).schedEn = s.schedEn := rfl
@[simp] theorem issue_fault (who : Agent) (args : Words5) : (s.issue who args).fault = s.fault := rfl
@[simp] theorem issue_flags (who : Agent) (args : Words5) : (s.issue who args).flags = s.flags := rfl
@[simp] theorem issue_schedTime (who : Agent) (args : Words5) : (s.issue who args).schedTime = s.schedTime := rfl
@[simp] theorem issue_kin (who : Agent) (args : Words5) : (s.issue who args).kin = s.kin := rfl
@[simp] theorem issue_fifo (who : Agent) (args : Words5) : (s.issue who args).fifo = s.fifo := rfl
@[simp] theorem issue_ports (who : Agent) (args : Words5) : (s.issue who args).ports = s.ports := rfl
@[simp] theorem issue_op (who : Agent) (args : Words5) : (s.issue who args).op = { s.op with issuer := who, args := args } := rfl
@[simp] theorem issue_pending (who : Agent) (args : Words5) : (s.issue who args).pending = s.pending := rfl
@[simp] theorem issue_envIndex (who : Agent) (args : Words5) : (s.issue who args).envIndex = s.envIndex := rfl
@[simp] theorem issue_axis (who : Agent) (args : Words5) (b : Axis) : (s.issue who args).axis b = s.axis b := by cases b <;> rfl
@[simp] theorem issue_task (who : Agent) (args : Words5) (u : TaskId) : (s.issue who args).task u = s.task u := by rcases u with (_ | _) | _ | (_ | _) <;> rfl
@[simp] theorem issue_slot (who : Agent) (args : Words5) (l : Slot) : (s.issue who args).slot l = s.slot l := by rcases l with (_ | _) | (_ | _) | (_ | _) | _ | (_ | _) <;> rfl
@[simp] theorem issue_portEnc (who : Agent) (args : Words5) (b : Axis) : (s.issue who args).portEnc b = s.portEnc b := by cases b <;> rfl
@[simp] theorem issue_portSw (who : Agent) (args : Words5) (b : Axis) : (s.issue who args).portSw b = s.portSw b := by cases b <;> rfl

/-! ### What each indexed update writes -/

@[simp] theorem setAxis_axis (a b : Axis) (r : AxisRegs) :
    (s.setAxis a r).axis b = if b = a then r else s.axis b := by
  cases a <;> cases b <;> rfl

@[simp] theorem setTask_task (t u : TaskId) (r : TaskRegs) :
    (s.setTask t r).task u = if u = t then r else s.task u := by
  rcases t with (_ | _) | _ | (_ | _) <;> rcases u with (_ | _) | _ | (_ | _) <;> rfl

@[simp] theorem setSlot_slot (k l : Slot) (c : SlotCell) :
    (s.setSlot k c).slot l = if l = k then c else s.slot l := by
  rcases k with (_ | _) | (_ | _) | (_ | _) | _ | (_ | _) <;>
    rcases l with (_ | _) | (_ | _) | (_ | _) | _ | (_ | _) <;> rfl

theorem setAxis_setAxis (a : Axis) (r r' : AxisRegs) :
    (s.setAxis a r).setAxis a r' = s.setAxis a r' := by cases a <;> rfl

theorem setTask_setTask (t : TaskId) (r r' : TaskRegs) :
    (s.setTask t r).setTask t r' = s.setTask t r' := by
  rcases t with (_ | _) | _ | (_ | _) <;> rfl

/-! ### Reset -/

@[simp] theorem restart_params : s.restart.params = s.params := rfl
@[simp] theorem restart_ports : s.restart.ports = s.ports := rfl
@[simp] theorem restart_pending : s.restart.pending = s.pending := rfl
@[simp] theorem restart_envIndex : s.restart.envIndex = s.envIndex := rfl
@[simp] theorem restart_schedEn : s.restart.schedEn = false := rfl
@[simp] theorem restart_fault : s.restart.fault = false := rfl
@[simp] theorem restart_flags : s.restart.flags = 0 := rfl
@[simp] theorem restart_schedTime : s.restart.schedTime = 0 := rfl
@[simp] theorem restart_kin : s.restart.kin = {} := rfl
@[simp] theorem restart_fifo : s.restart.fifo = [] := rfl
@[simp] theorem restart_op : s.restart.op = {} := rfl
@[simp] theorem restart_axis (b : Axis) : s.restart.axis b = {} := by cases b <;> rfl
@[simp] theorem restart_task (u : TaskId) : s.restart.task u = {} := by
  rcases u with (_ | _) | _ | (_ | _) <;> rfl
@[simp] theorem restart_slot (l : Slot) : s.restart.slot l = {} := by
  rcases l with (_ | _) | (_ | _) | (_ | _) | _ | (_ | _) <;> rfl

end Sys2Proof.Machine
end

