-- ==== Sys2Proof/Laws/Registers.lean ====
section
/-! SUPPORT. What `MemRead` gives after each named update (spec/20_memory.md R61, R64): a register an update
does not own reads as before. -/

namespace Sys2Proof.Machine

open Sys2Proof

variable (s : State)

@[simp] theorem readReg_respond (st : Status) (w : Words5) (r : Reg) :
    readReg (s.respond st w) r = readReg s r := by cases r <;> simp [readReg, ctrlWord]

@[simp] theorem readReg_issue (who : Agent) (args : Words5) (r : Reg) :
    readReg (s.issue who args) r = readReg s r := by cases r <;> simp [readReg, ctrlWord]

@[simp] theorem readReg_setPorts (p : Ports) (r : Reg) : readReg (s.setPorts p) r = readReg s r := by
  cases r <;> simp [readReg, ctrlWord]

@[simp] theorem readReg_setPending (l : List Event) (r : Reg) : readReg (s.setPending l) r = readReg s r := by
  cases r <;> simp [readReg, ctrlWord]

@[simp] theorem readReg_setEnvIndex (n : Nat) (r : Reg) : readReg (s.setEnvIndex n) r = readReg s r := by
  cases r <;> simp [readReg, ctrlWord]

@[simp] theorem readReg_setFlags (f : Half) (r : Reg) :
    readReg (s.setFlags f) r = if r = .flags then f.setWidth 32 else readReg s r := by
  cases r <;> simp [readReg, ctrlWord]

@[simp] theorem readReg_setTime (w : Word) (r : Reg) :
    readReg (s.setTime w) r = if r = .schedTime then w else readReg s r := by
  cases r <;> simp [readReg, ctrlWord]

@[simp] theorem readReg_setFifo (q : List Command) (r : Reg) :
    readReg (s.setFifo q) r = if r = .fifoCount then u32Word q.length else readReg s r := by
  cases r <;> simp [readReg, ctrlWord]

/-- An update of one axis: the registers of that axis's block and buffer read from the new ones. -/
@[simp] theorem readReg_setAxis (a : Axis) (x : AxisRegs) (r : Reg) :
    readReg (s.setAxis a x) r =
      match r with
      | .axis b q => if b = a then readAxisReg x q else readReg s r
      | .rampBuf b i => if b = a then bufRead x.ramp.buf i.toNat else readReg s r
      | _ => readReg s r := by
  cases r <;> simp [readReg, ctrlWord] <;> split <;> simp_all

/-- An update of one task. -/
@[simp] theorem readReg_setTask (t : TaskId) (x : TaskRegs) (r : Reg) :
    readReg (s.setTask t x) r =
      match r with
      | .period u => if u = t then x.period else readReg s r
      | .wake u => if u = t then x.wake else readReg s r
      | .tstat u => if u = t then tstatWord x else readReg s r
      | _ => readReg s r := by
  cases r <;> simp [readReg, ctrlWord] <;> split <;> simp_all

/-- An update of one slot. -/
@[simp] theorem readReg_setSlot (k : Slot) (c : SlotCell) (r : Reg) :
    readReg (s.setSlot k c) r =
      match r with
      | .slotVal l => if l = k then c.val else readReg s r
      | .slotValid l => if l = k then boolWord c.valid else readReg s r
      | _ => readReg s r := by
  cases r <;> simp [readReg, ctrlWord] <;> split <;> simp_all

/-- An update of the Kinematics registers. -/
@[simp] theorem readReg_setKin (k : KinRegs) (r : Reg) :
    readReg (s.setKin k) r =
      match r with
      | .kinCurX => k.curX
      | .kinCurY => k.curY
      | .kinCurF => k.curF
      | .kinLastX => k.lastX
      | .kinLastY => k.lastY
      | .kinLastF => k.lastF
      | _ => readReg s r := by
  cases r <;> simp [readReg, ctrlWord]

@[simp] theorem readReg_setSchedEn (b : Bool) (r : Reg) :
    readReg (s.setSchedEn b) r =
      if r = .ctrl then boolWord b ||| (boolWord s.fault <<< 1)
      else readReg s r := by
  cases r <;> simp [readReg, ctrlWord]

@[simp] theorem readReg_setFault (b : Bool) (r : Reg) :
    readReg (s.setFault b) r =
      if r = .ctrl then boolWord s.schedEn ||| (boolWord b <<< 1)
      else readReg s r := by
  cases r <;> simp [readReg, ctrlWord]

/-- Reset leaves every register 0 but `PARAMS` (spec/10_state.md R26, R46). -/
theorem readReg_restart (r : Reg) : readReg s.restart r = if r = .params then paramsWord s.params else 0 := by
  rcases r with _ | _ | _ | _ | _ | _ | _ | _ | _ | _ | _ | _ | _ | _ | _ | _ | ⟨a, q⟩ | _ <;>
    simp [readReg, ctrlWord, tstatWord, boolWord, u32Word, bufRead]
  cases q <;> rfl

end Sys2Proof.Machine
end

