-- ==== Sys2Proof/Laws/Ops.lean ====
section
/-! SUPPORT. One lemma for each shared operation that says once everything it can do: frames, the refusal of
a transaction, the host's rights, starting and stopping the tasks, the end of a task step, one task at a
TICK, the fault state, the clamp. -/

namespace Sys2Proof.Machine

open Sys2Proof Host

/-! ### Frames -/

theorem Frame.refl (w : Writes) (s : State) : Frame w s s :=
  ⟨fun _ _ _ => rfl, fun _ _ => rfl, fun _ _ => rfl, fun _ => rfl, fun _ _ => ⟨rfl, rfl⟩, rfl, rfl, rfl, rfl⟩

/-- The response is not part of what a frame keeps. -/
theorem Frame.respond {w : Writes} {s t : State} (st : Status) (r : Words5) (h : Frame w s t) :
    Frame w s (t.respond st r) := by
  refine ⟨fun q h1 h2 => ?_, fun n hn => ?_, fun u hu => ?_, fun hf => ?_, fun a ha => ?_, ?_, ?_, ?_, ?_⟩
  · simpa using h.reg q h1 h2
  · simpa using h.flag n hn
  · simpa using h.tmp u hu
  · simpa using h.fifo hf
  · simpa using h.duty a ha
  · simpa using h.params
  · simpa using h.ports
  · simpa using h.pending
  · simpa using h.envIndex

/-- Frames compose where the first is followed by another of the same writes. -/
theorem Frame.trans {w : Writes} {s t u : State} (h : Frame w s t) (k : Frame w t u) : Frame w s u := by
  refine ⟨fun q h1 h2 => ?_, fun n hn => ?_, fun v hv => ?_, fun hf => ?_, fun a ha => ?_, ?_, ?_, ?_, ?_⟩
  · rw [k.reg q h1 h2, h.reg q h1 h2]
  · rw [k.flag n hn, h.flag n hn]
  · rw [k.tmp v hv, h.tmp v hv]
  · rw [k.fifo hf, h.fifo hf]
  · rw [(k.duty a ha).1, (k.duty a ha).2]; exact h.duty a ha
  · rw [k.params, h.params]
  · rw [k.ports, h.ports]
  · rw [k.pending, h.pending]
  · rw [k.envIndex, h.envIndex]

/-- A frame with more writes. -/
theorem Frame.mono {w w' : Writes} {s t : State} (h : Frame w s t) (hr : ∀ r ∈ w.reg, r ∈ w'.reg)
    (hg : ∀ g ∈ w.flag, g ∈ w'.flag) (hu : ∀ u ∈ w.tmp, u ∈ w'.tmp)
    (hf : w.fifo = true → w'.fifo = true) (ha : ∀ a ∈ w.duty, a ∈ w'.duty) : Frame w' s t := by
  refine ⟨fun q h1 h2 => h.reg q h1 fun h3 => h2 (hr q h3), fun n hn => h.flag n fun g hg' => hn g (hg g hg'),
    fun v hv => h.tmp v fun h3 => hv (hu v h3), fun h3 => h.fifo ?_, fun a h3 => h.duty a fun h4 => h3 (ha a h4),
    h.params, h.ports, h.pending, h.envIndex⟩
  cases hw : w.fifo
  · rfl
  · rw [hf hw] at h3; cases h3

/-- Taking a transaction onto the operation port changes nothing a frame speaks of. -/
theorem Frame.issue (w : Writes) (s : State) (who : Agent) (args : Words5) :
    Frame w s (s.issue who args) := by
  refine ⟨fun q h1 h2 => ?_, fun n hn => ?_, fun v hv => ?_, fun hf => ?_, fun a ha => ?_, ?_, ?_, ?_, ?_⟩
  all_goals simp

/-- Raising a flag writes that bit of `FLAGS` and nothing else (spec/10_state.md R22). -/
theorem flags_raise (s : State) (g : Flag) (n : Nat) :
    (s.raise g).flags.getLsbD n = (s.flags.getLsbD n || decide (n = flagBit g ∧ n < 16)) := by
  simp only [State.raise, setFlags_flags, setFlagBit, BitVec.getLsbD_or, BitVec.getLsbD_twoPow]
  grind

theorem flagBit_lt (g : Flag) : flagBit g < 16 := by
  rcases g with (_ | _) | (_ | _) | (_ | _) | (_ | _) | _ | ((_ | _) | _ | (_ | _)) | _ | _ <;> decide

/-- Two flags never share a bit. -/
theorem flagBit_inj {g h : Flag} (e : flagBit g = flagBit h) : g = h := by
  revert e
  rcases g with (_ | _) | (_ | _) | (_ | _) | (_ | _) | _ | ((_ | _) | _ | (_ | _)) | _ | _ <;>
    rcases h with (_ | _) | (_ | _) | (_ | _) | (_ | _) | _ | ((_ | _) | _ | (_ | _)) | _ | _ <;> decide

theorem flag_raise_self (s : State) (g : Flag) : (s.raise g).flag g = true := by
  rw [State.flag, flags_raise]; simp [flagBit_lt]

theorem Frame.raise (s : State) (g : Flag) : Frame { flag := [g] } s (s.raise g) := by
  refine ⟨fun q h1 h2 => ?_, fun n hn => ?_, fun u hu => ?_, fun hf => ?_, fun a ha => ?_, ?_, ?_, ?_, ?_⟩
  · simp [h1]
  · rw [flags_raise]
    have : ¬(n = flagBit g) := fun h => hn g (by simp) h.symm
    simp [this]
  all_goals simp

/-! ### The end of a transaction that did not succeed -/

/-- `reject` with a flag: the status, the flag, and nothing else (spec/60_exceptions.md R252, R254). -/
theorem reject_flag (s : State) (st : Status) (g : Flag) : Rejects s (s.reject st (some g)) st g := by
  refine ⟨⟨rfl, rfl⟩, ?_, Frame.respond _ _ (Frame.raise s g)⟩
  simpa [State.reject, State.flag] using flag_raise_self s g

/-- `reject` without a flag: the status and nothing else. -/
theorem reject_none (s : State) (st : Status) :
    Answers (s.reject st none) st {} ∧ Frame {} s (s.reject st none) :=
  ⟨⟨rfl, rfl⟩, Frame.respond _ _ (Frame.refl _ s)⟩

/-! ### The rights of the host (R85 step 2, R260) -/

theorem ownerOnly_allowed {s : State} (rule : State → State) (h : s.hostInRun = false) :
    s.ownerOnly rule = rule s := by simp [State.ownerOnly, h]

theorem ownerOnly_denied {s : State} (rule : State → State) (h : s.hostInRun = true) :
    s.ownerOnly rule = s.rejectDenied := by simp [State.ownerOnly, h]

theorem hostInRun_iff (s : State) : s.hostInRun = true ↔ s.op.issuer = .host ∧ s.schedEn = true := by
  simp [State.hostInRun]

/-- A task's transaction is never the host's. -/
@[simp] theorem issue_task_hostInRun (s : State) (t : TaskId) (args : Words5) :
    (s.issue (.task t) args).hostInRun = false := by simp [State.hostInRun]

@[simp] theorem issue_host_hostInRun (s : State) (args : Words5) :
    (s.issue .host args).hostInRun = s.schedEn := by simp [State.hostInRun]

/-! ### Starting and stopping the tasks -/

theorem forall_task {P : TaskId → Prop} :
    (∀ t, P t) ↔ P (.enc .A) ∧ P (.enc .B) ∧ P .ctrl ∧ P (.mot .A) ∧ P (.mot .B) := by
  constructor
  · intro h; exact ⟨h _, h _, h _, h _, h _⟩
  · rintro ⟨h1, h2, h3, h4, h5⟩ ((_ | _) | _ | (_ | _)) <;> assumption

/-- Every task released (spec/46_sys_cfg.md R232): the new registers of a task. -/
theorem foldl_startTask_task (s : State) (u : TaskId) :
    (taskList.foldl startTask s).task u =
      { s.task u with wake := (s.task u).period, ready := true, tstep := 0 } := by
  revert u; rw [forall_task]
  simp [taskList, startTask]

/-- Every task stopped (R233). -/
theorem foldl_stopTask_task (s : State) (u : TaskId) :
    (taskList.foldl stopTask s).task u = { s.task u with ready := false, tstep := 0 } := by
  revert u; rw [forall_task]
  simp [taskList, stopTask]

/-- Two states that agree in everything but the tasks' registers. -/
structure SameButTasks (s t : State) : Prop where
  params    : t.params = s.params
  schedEn   : t.schedEn = s.schedEn
  fault     : t.fault = s.fault
  flags     : t.flags = s.flags
  schedTime : t.schedTime = s.schedTime
  kin       : t.kin = s.kin
  fifo      : t.fifo = s.fifo
  ports     : t.ports = s.ports
  op        : t.op = s.op
  pending   : t.pending = s.pending
  envIndex  : t.envIndex = s.envIndex
  axis      : ∀ b, t.axis b = s.axis b
  slot      : ∀ k, t.slot k = s.slot k

theorem SameButTasks.trans {s t u : State} (h : SameButTasks s t) (k : SameButTasks t u) :
    SameButTasks s u := by
  obtain ⟨_, _, _, _, _, _, _, _, _, _, _, _, _⟩ := h
  obtain ⟨_, _, _, _, _, _, _, _, _, _, _, _, _⟩ := k
  constructor <;> simp_all

theorem SameButTasks.setTask (s : State) (u : TaskId) (r : TaskRegs) : SameButTasks s (s.setTask u r) := by
  constructor <;> simp

/-- What a start of every task leaves. -/
theorem foldl_startTask_rest (s : State) : SameButTasks s (taskList.foldl startTask s) := by
  simp only [taskList, List.foldl_cons, List.foldl_nil, startTask]
  repeat' first | exact SameButTasks.setTask _ _ _ | refine SameButTasks.trans ?_ (SameButTasks.setTask _ _ _)

/-- What a stop of every task leaves. -/
theorem foldl_stopTask_rest (s : State) : SameButTasks s (taskList.foldl stopTask s) := by
  simp only [taskList, List.foldl_cons, List.foldl_nil, stopTask]
  repeat' first | exact SameButTasks.setTask _ _ _ | refine SameButTasks.trans ?_ (SameButTasks.setTask _ _ _)

/-! ### The fault state -/

theorem enterFault_slot (s : State) (k : Slot) :
    s.enterFault.slot k =
      if k = .duty .A ∨ k = .duty .B then { val := zeroF, valid := true } else s.slot k := by
  simp [State.enterFault, slotStored]; grind

theorem leaveFault_axis (s : State) (a : Axis) :
    s.leaveFault.axis a = { s.axis a with pid := pidCleared (s.axis a).pid } := by
  cases a <;> simp [State.leaveFault]

/-! ### Task steps and TICK -/

theorem bodyLen_lt (t : TaskId) : bodyLen t < 256 := by rcases t with (_ | _) | _ | (_ | _) <;> decide

/-- The end of a step (spec/45_sched_tasks.md R203): the step index of that task and nothing else. -/
theorem finishStep_task (t u : TaskId) (k : Nat) (s : State) :
    (finishStep t k s).task u =
      if u = t then
        (if k + 1 = bodyLen t then { s.task t with ready := false, tstep := 0 }
         else { s.task t with tstep := BitVec.ofNat 8 (k + 1) })
      else s.task u := by
  unfold finishStep; split <;> simp

theorem finishStep_rest (t : TaskId) (k : Nat) (s : State) : SameButTasks s (finishStep t k s) := by
  unfold finishStep; split <;> exact SameButTasks.setTask _ _ _

/-- One task at a TICK (R201): that task's registers. -/
theorem tickTask_task (s : State) (t u : TaskId) :
    (tickTask s t).task u =
      if u = t ∧ s.schedTime = (s.task t).wake then
        (if (s.task t).ready then { s.task t with wake := (s.task t).wake + (s.task t).period }
         else { s.task t with
                  wake := (s.task t).wake + (s.task t).period, ready := true, tstep := 0 })
      else s.task u := by
  unfold tickTask
  by_cases hw : s.schedTime = (s.task t).wake <;> by_cases hr : (s.task t).ready = true <;>
    by_cases h : u = t <;> simp_all

/-- One task at a TICK: the rest of the state. Only `OVERRUN[t]` can be raised (R205). -/
theorem tickTask_rest (s : State) (t : TaskId) :
    let s' := tickTask s t
    s'.params = s.params ∧ s'.schedEn = s.schedEn ∧ s'.fault = s.fault ∧
      s'.flags = (if s.schedTime = (s.task t).wake ∧ (s.task t).ready = true
                  then setFlagBit s.flags (.overrun t) else s.flags) ∧
      s'.schedTime = s.schedTime ∧ s'.kin = s.kin ∧ s'.fifo = s.fifo ∧ s'.ports = s.ports ∧ s'.op = s.op ∧
      s'.pending = s.pending ∧ s'.envIndex = s.envIndex ∧ (∀ b, s'.axis b = s.axis b) ∧
      (∀ k, s'.slot k = s.slot k) := by
  unfold tickTask
  by_cases hw : s.schedTime = (s.task t).wake <;> by_cases hr : (s.task t).ready = true <;> simp_all

/-- The running task is ready, in run mode, with no ready task before it (R202). -/
theorem runningTask_some {s : State} {t : TaskId} (h : runningTask s = some t) :
    s.schedEn = true ∧ (s.task t).ready = true := by
  unfold runningTask at h
  split at h
  · rename_i hs; exact ⟨hs, by simpa using List.find?_some h⟩
  · cases h

/-- What taking an event off leaves: the event list, and the strobes ended (log 4, log 8). -/
theorem takeEvent_fields (s : State) :
    let s' := takeEvent s
    s'.params = s.params ∧ s'.schedEn = s.schedEn ∧ s'.fault = s.fault ∧ s'.flags = s.flags ∧
      s'.schedTime = s.schedTime ∧ s'.kin = s.kin ∧ s'.fifo = s.fifo ∧ s'.ports = s.ports ∧ s'.op = s.op ∧
      (∀ u, s'.task u = s.task u) ∧ (∀ b, s'.axis b = { s.axis b with dutyStb := false }) ∧
      (∀ k, s'.slot k = s.slot k) := by
  unfold takeEvent; split <;> simp <;> intro b <;> cases b <;> simp

/-! ### The clamp (spec/00_scope.md R16) -/

/-- A clamp answers one of its three operands. -/
theorem clamp_cases (v lo hi : Word) :
    (Num.flt v lo = true ∧ Num.clamp v lo hi = lo) ∨
      (Num.flt v lo = false ∧ Num.fgt v hi = true ∧ Num.clamp v lo hi = hi) ∨
      (Num.flt v lo = false ∧ Num.fgt v hi = false ∧ Num.clamp v lo hi = v) := by
  unfold Num.clamp; grind

end Sys2Proof.Machine
end

