-- ==== Sys2Proof/Laws/PerInstr.lean ====
section
/-! SUPPORT. The per-instruction family EncodesLegalWord: the encoder's word of an operation has exactly the
fields of its row of the table (spec/30_encoding.md R80, R82), and these are legal for the row's format
(R81, R84). -/

namespace Sys2Proof.Laws.EncodesLegalWord

open Sys2Proof

/-- The word of `i` has the fields of its row, and they are well-formed. -/
def Statement (i : Instr) : Prop := splitWord (encode i) = rawOf i ∧ (rawOf i).wellFormed = true

theorem nop : Statement .nop := ⟨splitWord_packWord _, by decide⟩
theorem sysReset : Statement .sysReset := ⟨splitWord_packWord _, by decide⟩
theorem sysStart : Statement .sysStart := ⟨splitWord_packWord _, by decide⟩
theorem sysStop : Statement .sysStop := ⟨splitWord_packWord _, by decide⟩
theorem sysFault : Statement .sysFault := ⟨splitWord_packWord _, by decide⟩
theorem sysClrfault : Statement .sysClrfault := ⟨splitWord_packWord _, by decide⟩
theorem cfgRd (addr : RegAddr) : Statement (.cfgRd addr) := ⟨splitWord_packWord _, rfl⟩
theorem cfgWr (addr : RegAddr) : Statement (.cfgWr addr) := ⟨splitWord_packWord _, rfl⟩
theorem encRead (a : Axis) : Statement (.encRead a) := ⟨splitWord_packWord _, by cases a <;> decide⟩
theorem encZero (a : Axis) : Statement (.encZero a) := ⟨splitWord_packWord _, by cases a <;> decide⟩
theorem encPos (a : Axis) : Statement (.encPos a) := ⟨splitWord_packWord _, by cases a <;> decide⟩
theorem encDpos (a : Axis) : Statement (.encDpos a) := ⟨splitWord_packWord _, by cases a <;> decide⟩
theorem swRestart (a : Axis) : Statement (.swRestart a) := ⟨splitWord_packWord _, by cases a <;> decide⟩
theorem swLap (a : Axis) : Statement (.swLap a) := ⟨splitWord_packWord _, by cases a <;> decide⟩
theorem kinUpdate : Statement .kinUpdate := ⟨splitWord_packWord _, by decide⟩
theorem kinReset : Statement .kinReset := ⟨splitWord_packWord _, by decide⟩
theorem kinFwd : Statement .kinFwd := ⟨splitWord_packWord _, by decide⟩
theorem kinInv : Statement .kinInv := ⟨splitWord_packWord _, by decide⟩
theorem kinSeg (a : Axis) : Statement (.kinSeg a) := ⟨splitWord_packWord _, by cases a <;> decide⟩
theorem rampLoad (a : Axis) : Statement (.rampLoad a) := ⟨splitWord_packWord _, by cases a <;> decide⟩
theorem rampInit (a : Axis) : Statement (.rampInit a) := ⟨splitWord_packWord _, by cases a <;> decide⟩
theorem rampGen (a : Axis) : Statement (.rampGen a) := ⟨splitWord_packWord _, by cases a <;> decide⟩
theorem rampNext (a : Axis) : Statement (.rampNext a) := ⟨splitWord_packWord _, by cases a <;> decide⟩
theorem rampRelease (a : Axis) : Statement (.rampRelease a) := ⟨splitWord_packWord _, by cases a <;> decide⟩
theorem pidRun (a : Axis) : Statement (.pidRun a) := ⟨splitWord_packWord _, by cases a <;> decide⟩
theorem pidReset (a : Axis) : Statement (.pidReset a) := ⟨splitWord_packWord _, by cases a <;> decide⟩
theorem slotPut (k : Slot) : Statement (.slotPut k) :=
  ⟨splitWord_packWord _, by rcases k with (_ | _) | (_ | _) | (_ | _) | _ | (_ | _) <;> decide⟩
theorem slotGet (k : Slot) : Statement (.slotGet k) :=
  ⟨splitWord_packWord _, by rcases k with (_ | _) | (_ | _) | (_ | _) | _ | (_ | _) <;> decide⟩
theorem fifoPut : Statement .fifoPut := ⟨splitWord_packWord _, by decide⟩
theorem fifoGet : Statement .fifoGet := ⟨splitWord_packWord _, by decide⟩
theorem motOut (a : Axis) : Statement (.motOut a) := ⟨splitWord_packWord _, by cases a <;> decide⟩

end Sys2Proof.Laws.EncodesLegalWord
end

