-- ==== Sys2Proof/Laws/Tasks.lean ====
section
/-! SUPPORT. What the bodies of the tasks can do (spec/45_sched_tasks.md R206, R207, R209, R217): which
operations a step can issue, what a post-action can write, and the decomposition of a step of the machine by
its event. -/

namespace Sys2Proof.Machine

open Sys2Proof Host

theorem guarded_some {g : Bool} {i : Instr} {args : Words5} {o : TaskOp}
    (h : guarded g i args = some o) : g = true ∧ o = { instr := i, args := args } := by
  unfold guarded at h; split at h
  · exact ⟨‹_›, by simpa using h.symm⟩
  · cases h

/-- The operations of the body of `ENC_a`. -/
theorem encStep_instr {a : Axis} {s : State} {k : Nat} {o : TaskOp} (h : encStep a s k = some o) :
    o.instr ∈ [Instr.slotGet .homeReq, .encRead a, .encZero a, .swLap a, .encPos a, .encDpos a,
      .slotPut (.pos a), .slotPut (.vel a), .slotPut (.dt a)] := by
  unfold encStep at h
  dsimp only at h
  split at h <;> first | (cases h; done) | (obtain ⟨-, rfl⟩ := guarded_some h; simp)

/-- The operations of the body of `CTRL`. -/
theorem ctrlStep_instr {s : State} {k : Nat} {o : TaskOp} (h : ctrlStep s k = some o) :
    (∃ a, o.instr ∈ [Instr.kinSeg a, .rampLoad a, .rampInit a, .rampGen a, .rampNext a, .rampRelease a,
      .pidRun a, .pidReset a, .slotGet (.pos a), .slotPut (.duty a)]) ∨
      o.instr ∈ [Instr.slotGet .homeReq, .kinUpdate, .kinReset, .fifoGet] := by
  unfold ctrlStep at h
  dsimp only at h
  split at h <;>
    first
    | (cases h; done)
    | (obtain ⟨-, rfl⟩ := guarded_some h
       first
       | (right; simp; done)
       | (left; refine ⟨.A, ?_⟩; simp; done)
       | (left; refine ⟨.B, ?_⟩; simp))

/-- The operations of the body of `MOT_a`. -/
theorem motStep_instr {a : Axis} {s : State} {k : Nat} {o : TaskOp} (h : motStep a s k = some o) :
    o.instr ∈ [Instr.slotGet (.duty a), .motOut a] := by
  unfold motStep at h
  dsimp only at h
  split at h <;> first | (cases h; done) | (obtain ⟨-, rfl⟩ := guarded_some h; simp)

/-- A post-action writes temporaries of its own task, and, for `CTRL`, a setpoint. -/
theorem bodyPost_cases (u : TaskId) (k : Nat) (s : State) :
    bodyPost u k s = s ∨ (∃ f, bodyPost u k s = s.mapTmp u f) ∨
      (u = .ctrl ∧ ∃ a w, bodyPost u k s = s.setSp a w) := by
  rcases u with a | _ | a
  · unfold bodyPost encPost
    dsimp only
    split <;> first | exact .inl rfl | exact .inr (.inl ⟨_, rfl⟩)
  · unfold bodyPost ctrlPost segmentTaken waypointTaken positionTaken dutyTaken
    dsimp only
    split <;> (try split) <;>
      first
      | exact .inl rfl
      | exact .inr (.inl ⟨_, rfl⟩)
      | exact .inr (.inr ⟨rfl, _, _, rfl⟩)
  · unfold bodyPost motPost
    dsimp only
    split <;> first | exact .inl rfl | exact .inr (.inl ⟨_, rfl⟩)

/-- Everything a step of the machine can be, by its event (R204). -/
theorem step_cases {s t : State} (h : step s = .next t) :
    (nextEvent s = .reset ∧ t = (takeEvent s).restart) ∨
    (nextEvent s = .tick ∧ t = tickEvent (takeEvent s)) ∨
    (∃ p, nextEvent s = .drive p ∧ t = (takeEvent s).setPorts p) ∨
    (∃ w args why, nextEvent s = .host w args ∧ decode w = .error why ∧
      t = ((takeEvent s).issue .host args).rejectIllegal) ∨
    (∃ w args i, nextEvent s = .host w args ∧ decode w = .ok i ∧
      exec i ((takeEvent s).issue .host args) = .next t) ∨
    (nextEvent s = .taskStep ∧ runningTask (takeEvent s) = none ∧ t = takeEvent s) ∨
    (nextEvent s = .taskStep ∧ ∃ u, runningTask (takeEvent s) = some u ∧
      let s₁ := takeEvent s
      let k := (s₁.task u).tstep.toNat
      (bodyStep u s₁ k = none ∧ t = finishStep u k s₁ ∨
        ∃ o x, bodyStep u s₁ k = some o ∧ exec o.instr (s₁.issue (.task u) o.args) = .next x ∧
          t = finishStep u k (bodyPost u k x))) := by
  simp only [step, stepEvent] at h
  generalize hs : takeEvent s = s₁ at h ⊢
  cases he : nextEvent s with
  | reset => rw [he] at h; left; simpa [applyEvent] using h.symm
  | tick => rw [he] at h; right; left; simpa [applyEvent] using h.symm
  | drive p => rw [he] at h; right; right; left; exact ⟨p, rfl, by simpa [applyEvent] using h.symm⟩
  | host w args =>
    rw [he] at h
    simp only [applyEvent, hostTransaction] at h
    split at h
    · rename_i why hw
      exact .inr (.inr (.inr (.inl ⟨w, args, why, rfl, hw, by simpa using h.symm⟩)))
    · rename_i i hw
      exact .inr (.inr (.inr (.inr (.inl ⟨w, args, i, rfl, hw, h⟩))))
  | taskStep =>
    rw [he] at h
    simp only [applyEvent, taskStepEvent] at h
    split at h
    · rename_i hr
      exact .inr (.inr (.inr (.inr (.inr (.inl ⟨rfl, hr, by simpa using h.symm⟩)))))
    · rename_i u hr
      refine .inr (.inr (.inr (.inr (.inr (.inr ⟨rfl, u, hr, ?_⟩)))))
      simp only [taskTransaction] at h
      split at h
      · rename_i hb; exact .inl ⟨hb, by simpa using h.symm⟩
      · rename_i o hb
        split at h
        · rename_i x hx; exact .inr ⟨o, x, hb, hx, by simpa using h.symm⟩
        · cases h
        · cases h

/-- The running task is the same before an event is taken. -/
theorem runningTask_takeEvent (s : State) : runningTask (takeEvent s) = runningTask s := by
  obtain ⟨-, h2, -, -, -, -, -, -, -, h10, -, -⟩ := takeEvent_fields s
  simp only [runningTask, h2, h10]

/-- A task-step event of the running task is its transaction at its step index. -/
theorem step_taskStep {s : State} {rest : List Event} {u : TaskId} (hp : s.pending = .taskStep :: rest)
    (hr : runningTask s = some u) :
    step s = taskTransaction u (s.task u).tstep.toNat (afterTaking s rest) := by
  have ht : takeEvent s = afterTaking s rest := by simp [takeEvent, afterTaking, hp]
  have hn : nextEvent s = .taskStep := by simp [nextEvent, hp]
  have hr' : runningTask (takeEvent s) = some u := by rw [runningTask_takeEvent, hr]
  have hk : ((takeEvent s).task u).tstep = (s.task u).tstep := by
    obtain ⟨-, -, -, -, -, -, -, -, -, h10, -, -⟩ := takeEvent_fields s
    rw [h10]
  rw [ht] at hr' hk
  simp only [step, stepEvent, hn, ht, applyEvent, taskStepEvent, hr', hk]

/-- What an operation of task `CTRL` gives, where `exec` answers a next state. -/
theorem runOp_of_next {i : Instr} {args : Words5} {s t : State}
    (h : exec i (s.issue (.task .ctrl) args) = .next t) : runOp i args s = t := by
  simp only [runOp, h]

/-- A run goes on from the state its first step leads to. -/
theorem runSteps_succ {s t : State} (n : Nat) (h : step s = .next t) : runSteps (n + 1) s = runSteps n t := by
  simp only [runSteps, h]

/-- A run of a sum of steps is two runs, one after the other. -/
theorem runSteps_add {s t : State} (m n : Nat) (h : runSteps m s = .next t) :
    runSteps (m + n) s = runSteps n t := by
  induction m generalizing s with
  | zero =>
    simp only [runSteps, Outcome.next.injEq] at h
    rw [Nat.zero_add, h]
  | succ m ih =>
    rw [Nat.succ_add]
    simp only [runSteps] at h ⊢
    cases hs : step s with
    | next x => rw [hs] at h; exact ih h
    | fault r => cases r
    | refused r => rw [hs] at h; cases h

end Sys2Proof.Machine
end

