-- ==== Sys2Proof/Tests/Slice0.lean ====
section
/-! SUPPORT. Own tests: the smoke test of well-formedness, the decoding of every operation from its word
written out bit by bit, one-step tests with the values of spec/95_test_vectors.md (each names its vector),
and for each statement with hypotheses a concrete state that meets them. -/

namespace Sys2Proof.Tests

open Sys2Proof Sys2Proof.Machine Host

/-! Each test is checked before the next is read: a hundred of them in flight at once take a thread each. -/
set_option Elab.async false

/-! ### Well-formedness (spec/30_encoding.md R81, R84; spec/00_scope.md R7) -/

theorem test_wf_reserved_bits_refused :
    (splitWord 0x01000000#32).wellFormed = false ∧ decode 0x01000000#32 = .error .reservedBits := by decide

theorem test_wf_undefined_op_refused :
    (splitWord 0x00000006#32).wellFormed = false ∧ (splitWord 0x000000FF#32).wellFormed = false ∧
    decode 0x00000006#32 = .error .undefinedOp ∧ decode 0x000000FF#32 = .error .undefinedOp := by decide

theorem test_wf_sel_refused :
    (splitWord 0x00000100#32).wellFormed = false ∧ (splitWord 0x00000108#32).wellFormed = false ∧
    decode 0x00000100#32 = .error .selNotZero ∧ decode 0x00000108#32 = .error .selNotZero := by decide

theorem test_wf_reg_refused :
    (splitWord 0x00001002#32).wellFormed = false ∧ (splitWord 0x00001010#32).wellFormed = false ∧
    decode 0x00001002#32 = .error .regNotZero ∧ decode 0x00001010#32 = .error .regNotZero := by decide

theorem test_wf_axis_refused :
    (splitWord 0x00000210#32).wellFormed = false ∧ decode 0x00000210#32 = .error .axisOutOfRange := by decide

theorem test_wf_slot_refused :
    (splitWord 0x00000950#32).wellFormed = false ∧ decode 0x00000950#32 = .error .slotOutOfRange := by decide

theorem test_wf_legal_word : (splitWord 0x00000850#32).wellFormed = true := by decide

theorem test_wf_params_refused :
    ({ Config.defaultParams with cmdFifoDepth := 0 } : Params).wellFormed = false ∧
    ({ Config.defaultParams with cmdFifoDepth := 256 } : Params).wellFormed = false ∧
    ({ Config.defaultParams with rampCap := 1 } : Params).wellFormed = false ∧
    ({ Config.defaultParams with rampCap := 257 } : Params).wellFormed = false := by decide

theorem test_wf_db_scale_refused :
    ({ Config.defaultParams with dbScale := 0x00000000 } : Params).wellFormed = false ∧
    ({ Config.defaultParams with dbScale := 0x80000001 } : Params).wellFormed = false ∧
    ({ Config.defaultParams with dbScale := 0x7FC00000 } : Params).wellFormed = false ∧
    ({ Config.defaultParams with dbScale := 0x00000001 } : Params).wellFormed = true := by decide +kernel

/-! ### Decoding: `zero`, `reg`, `sel`, `op` written bit by bit (R80, R82) -/

theorem test_decode_sys :
    decode 0b00000000000000000000000000000000#32 = .ok .nop ∧
    decode 0b00000000000000000000000000000001#32 = .ok .sysReset ∧
    decode 0b00000000000000000000000000000010#32 = .ok .sysStart ∧
    decode 0b00000000000000000000000000000011#32 = .ok .sysStop ∧
    decode 0b00000000000000000000000000000100#32 = .ok .sysFault ∧
    decode 0b00000000000000000000000000000101#32 = .ok .sysClrfault := by decide

theorem test_decode_cfg :
    decode 0b00000000010100000011000000001000#32 = .ok (.cfgRd 0x503) ∧
    decode 0b00000000000110010000000000001001#32 = .ok (.cfgWr 0x190) := by decide

theorem test_decode_encoder :
    decode 0b00000000000000000000000100010000#32 = .ok (.encRead .B) ∧
    decode 0b00000000000000000000000000010001#32 = .ok (.encZero .A) ∧
    decode 0b00000000000000000000000100010010#32 = .ok (.encPos .B) ∧
    decode 0b00000000000000000000000000010011#32 = .ok (.encDpos .A) ∧
    decode 0b00000000000000000000000100011000#32 = .ok (.swRestart .B) ∧
    decode 0b00000000000000000000000000011001#32 = .ok (.swLap .A) := by decide

theorem test_decode_kinematics :
    decode 0b00000000000000000000000000100000#32 = .ok .kinUpdate ∧
    decode 0b00000000000000000000000000100001#32 = .ok .kinReset ∧
    decode 0b00000000000000000000000000100010#32 = .ok .kinFwd ∧
    decode 0b00000000000000000000000000100011#32 = .ok .kinInv ∧
    decode 0b00000000000000000000000100100100#32 = .ok (.kinSeg .B) := by decide

theorem test_decode_ramp :
    decode 0b00000000000000000000000000110000#32 = .ok (.rampLoad .A) ∧
    decode 0b00000000000000000000000100110001#32 = .ok (.rampInit .B) ∧
    decode 0b00000000000000000000000000110010#32 = .ok (.rampGen .A) ∧
    decode 0b00000000000000000000000100110011#32 = .ok (.rampNext .B) ∧
    decode 0b00000000000000000000000000110100#32 = .ok (.rampRelease .A) := by decide

theorem test_decode_pid_motor :
    decode 0b00000000000000000000000101000000#32 = .ok (.pidRun .B) ∧
    decode 0b00000000000000000000000001000001#32 = .ok (.pidReset .A) ∧
    decode 0b00000000000000000000000101110000#32 = .ok (.motOut .B) := by decide

theorem test_decode_slots_fifo :
    decode 0b00000000000000000000011001010000#32 = .ok (.slotPut .homeReq) ∧
    decode 0b00000000000000000000100001010001#32 = .ok (.slotGet (.duty .B)) ∧
    decode 0b00000000000000000000001101010001#32 = .ok (.slotGet (.vel .B)) ∧
    decode 0b00000000000000000000000001100000#32 = .ok .fifoPut ∧
    decode 0b00000000000000000000000001100001#32 = .ok .fifoGet := by decide

/-- The host's reading of the table: a word of 32 bits, and a refused one. -/
theorem test_decode_table_word :
    decodeTableWord 32 0x651 = some (.slotGet .homeReq) ∧ decodeTableWord 32 0x951 = none := by decide

/-! ### Small states and helpers -/

/-- The state after a transaction of the host, none where it is not a next state. -/
def after (i : Instr) (args : Words5) (s : State) : Option State :=
  match exec i (s.issue .host args) with
  | .next t => some t
  | .fault _ => none
  | .refused _ => none

/-- Status and results of a transaction, with `FLAGS` after it. -/
def answer (o : Option State) : Option (Status × Words5 × Half) :=
  o.map fun t => (t.op.status, t.op.res, t.flags)

/-- The state after reset with given registers of axis A. -/
def onA (r : AxisRegs) : State := State.reset.setAxis .A r

/-- The state after reset with given encoder registers of axis A and a counter value on its port. -/
def encAt (e : EncRegs) (cnt : Half) : State := (onA { enc := e }).setPorts { encCntA := cnt }

/-- The state after reset with given stopwatch registers of axis A and a counter value on its port. -/
def swAt (last cnt : Half) : State := (onA { sw := ⟨last, last⟩ }).setPorts { swCntA := cnt }

/-- The ramp registers of axis A in `IDLE`, loaded with `cur`, `last`, `feed`, `slice`. -/
def loaded (cur last feed slice : Word) : RampRegs := { cur, last, feed, slice }

/-- The state after reset with given ramp registers of axis A. -/
def rampAt (r : RampRegs) : State := onA { ramp := r }

/-- The segment of vector G3, allocated: 0 to 6 at feed 2, slice 1. -/
def segG3 : RampRegs :=
  { slice := oneF, cur := 0x40C00000, last := zeroF, feed := twoF, tt := 0x40400000, n := 3, count := 4,
    state := .allocated }

/-- The segment of vector G3, generated and drained up to `rd`. -/
def readyG3 (rd : Word) : RampRegs :=
  { segG3 with
    rd := rd, state := .ready, termFeed := twoF,
    buf := [(1, 0x40000000), (2, 0x40800000), (3, 0x40C00000)] }

/-- The controller configuration "STD". -/
def std : PidRegs :=
  { kp := 0x40000000, ki := 0x3F000000, kd := 0x3E800000, deadbandPct := 0x40A00000,
    satLow := 0xC2C80000, satHigh := 0x42C80000, derivTau := 0x3F000000, integralMax := 0x41200000 }

/-- "STD" after the first call of vector C1. -/
def stdRunning : PidRegs :=
  { std with lastError := 0x41200000, lastTime := oneF, lastOutput := 0x41C80000, pidInit := true }

/-- The five tasks with the periods of vector Y8, released or not, to be released next at `wake = period`. -/
def tasksOf (ready : Bool) : Tasks :=
  { encA := { period := 3, wake := 3, ready := ready }
    encB := { period := 3, wake := 3, ready := ready }
    ctrl := { period := 30, wake := 30, ready := ready }
    motA := { period := 30, wake := 30, ready := ready }
    motB := { period := 30, wake := 30, ready := ready } }

/-- Configuration mode with legal periods. -/
def configured : State := { State.reset with tasks := tasksOf false }

/-- Run mode, every task released and none begun (vector Y8). -/
def running : State := { State.reset with schedEn := true, tasks := tasksOf true }

/-- Run mode with only one task ready, at step `k` of its body. -/
def runningAt (u : TaskId) (k : BitVec 8) : State :=
  let s : State := { State.reset with schedEn := true, tasks := tasksOf false }
  s.setTask u { s.task u with ready := true, tstep := k }

/-- A command with one coordinate and a feed. -/
def cmdX (x : Word) : Command := { x := x, y := 0, s := 0, f := 0x40A00000, moveType := 1 }

/-! ### One-step tests: system and configuration -/

theorem test_nop_in_run_mode :
    (after .nop {} running).map (fun t => (t.op.status, { t with op := running.op } == running)) =
      some (.ok, true) := by decide +kernel

theorem test_reset_clears_flags_and_mode :
    (after .sysReset {} { running with flags := 0xC000, schedTime := 7 }).map
      (fun t => { t with op := {} }) = some State.reset := by decide +kernel

/-- Y1. -/
theorem test_start_denied_without_periods :
    answer (after .sysStart {} State.reset) = some (.denied, {}, 0x4000) := by decide +kernel

/-- Y8. -/
theorem test_start_releases_all :
    (after .sysStart {} { configured with schedTime := 5 }).map (fun t => { t with op := {} }) =
      some running := by decide +kernel

theorem test_stop_abandons_bodies :
    (after .sysStop {} { runningAt .ctrl 7 with schedTime := 4, fault := true }).map
      (fun t => (t.schedEn, (t.task .ctrl).ready, (t.task .ctrl).tstep, t.schedTime, t.fault,
        (t.task .ctrl).wake)) =
      some (false, false, 0, 4, true, 30) := by decide +kernel

/-- P5: the outputs' slots go to zero at once, the pins keep their value. -/
theorem test_fault_zeroes_duty_slots :
    (after .sysFault {} ((running.putSlot (.duty .A) 0x41700000).setAxis .A
        { dutyOut := 0x41700000 })).map
      (fun t => (t.fault, t.slot (.duty .A), t.slot (.duty .B), (t.axis .A).dutyOut)) =
      some (true, ⟨0, true⟩, ⟨0, true⟩, 0x41700000) := by decide +kernel

theorem test_clrfault_resets_controllers :
    (after .sysClrfault {} { onA { pid := stdRunning } with fault := true }).map
      (fun t => (t.fault, (t.axis .A).pid)) = some (false, std) := by decide +kernel

/-- Y2. -/
theorem test_cfgrd_params :
    answer (after (.cfgRd 0x003) {} State.reset) = some (.ok, { w0 := 0x00004008 }, 0) := by decide +kernel

/-- Y3. -/
theorem test_cfgrd_unmapped :
    answer (after (.cfgRd 0x004) {} State.reset) = some (.illegal, {}, 0x8000) := by decide +kernel

/-- Y5. -/
theorem test_cfgwr_flags_one_to_clear :
    answer (after (.cfgWr 0x001) { w0 := 0x00004000 } { running with flags := 0xC000 }) =
      some (.ok, {}, 0x8000) := by decide +kernel

/-- Y4, Y6: a read-only register is refused, `ENC_INVERTED` keeps bit 0. -/
theorem test_cfgwr_classes :
    answer (after (.cfgWr 0x102) { w0 := 5 } State.reset) = some (.denied, {}, 0x4000) ∧
    (after (.cfgWr 0x105) { w0 := 0xFFFFFFFF } State.reset).map
      (fun t => readReg t (.axis .A .encInverted)) = some 1 := by decide +kernel

/-! ### One-step tests: encoder and stopwatch -/

/-- E1 and E10: across 65535/0, and the accumulator's own wrap. -/
theorem test_encread_wraps :
    (after (.encRead .A) {} (encAt { raw := 65530, lastRaw := 65530, ovfBound := 1000, abs := 100 } 5)).map
      (fun t => (t.op.res.w0, (t.axis .A).enc.lastDelta, (t.axis .A).enc.raw, (t.axis .A).enc.lastRaw)) =
      some (111, 11, 5, 5) ∧
    (after (.encRead .A) {} (encAt { ovfBound := 1, abs := 0x7FFFFFFF } 1)).map
      (fun t => t.op.res.w0) = some 0x80000000 := by decide +kernel

/-- E5, E6, E7, E9: the strict bound, `delta = -32768`, and inversion after the correction. -/
theorem test_encread_bound_and_inversion :
    (after (.encRead .A) {} (encAt { ovfBound := 16384 } 16384)).map (fun t => t.op.res.w0) = some 16384 ∧
    (after (.encRead .A) {} (encAt { ovfBound := 16384 } 16385)).map (fun t => t.op.res.w0) =
      some 0xFFFF4001 ∧
    (after (.encRead .A) {} (encAt { ovfBound := 32767 } 32768)).map (fun t => t.op.res.w0) = some 32768 ∧
    (after (.encRead .A) {}
      (encAt { lastRaw := 65530, ovfBound := 1000, abs := 100, inverted := true } 5)).map
      (fun t => t.op.res.w0) = some 89 := by decide +kernel

/-- E15. -/
theorem test_enczero_keeps_last_raw :
    (after (.encZero .A) {}
      (encAt { abs := 0xFFFF4E20, lastRaw := 20000, lastDelta := 0xFFFF4E20 } 7)).map
      (fun t => (t.axis .A).enc) =
      some { abs := 0, lastRaw := 20000, lastDelta := 0xFFFF4E20 } := by decide +kernel

/-- E16, E17, E19. -/
theorem test_encpos :
    answer (after (.encPos .A) {} (encAt { abs := 4000, tpr := 0x457A0000, mmpr := 0x42200000 } 0)) =
      some (.ok, { w0 := 0x42200000 }, 0) ∧
    answer (after (.encPos .A) {} (encAt { abs := 0xFFFFF830, tpr := 0x457A0000, mmpr := 0x42200000 } 0)) =
      some (.ok, { w0 := 0xC1A00000 }, 0) ∧
    answer (after (.encPos .A) {} (encAt { abs := 1, tpr := 0x457A0000, mmpr := 0x42200000 } 0)) =
      some (.ok, { w0 := 0x3C23D70B }, 0) := by decide +kernel

/-- E21. -/
theorem test_encdpos :
    answer (after (.encDpos .A) {}
      (encAt { lastDelta := 0xFFFFFF9C, abs := 3, tpr := 0x43C80000, mmpr := 0x42200000 } 0)) =
      some (.ok, { w0 := 0xC1200000 }, 0) := by decide +kernel

/-- W6. -/
theorem test_swrestart_does_not_sample :
    (after (.swRestart .A) {} (swAt 40000 1234)).map (fun t => ((t.axis .A).sw, t.ports.swCntA)) =
      some (⟨0, 0⟩, 1234) := by decide +kernel

/-- W1, W4. -/
theorem test_swlap_wraps :
    (after (.swLap .A) {} (swAt 65000 464)).map (fun t => (t.op.res.w0, (t.axis .A).sw)) =
      some (1000, ⟨464, 464⟩) ∧
    (after (.swLap .A) {} (swAt 1 0)).map (fun t => t.op.res.w0) = some 65535 := by decide +kernel

/-- V1, V2, V4. -/
theorem test_velocity :
    velocity 0x3E800000 15625 = 0x41800000 ∧ velocity 0xC1200000 31250 = 0xC3A00000 ∧
    velocity 0x41200000 15625 = 0x44200000 := by decide +kernel

/-! ### One-step tests: kinematics -/

/-- K1, K4. -/
theorem test_kinfwd :
    answer (after .kinFwd { w0 := 0x40400000, w1 := 0x40800000 } running) =
      some (.ok, { w0 := 0xBF800000, w1 := 0xC0E00000 }, 0) ∧
    answer (after .kinFwd { w0 := 0xBFC00000, w1 := 0x40100000 } running) =
      some (.ok, { w0 := 0xC0700000, w1 := 0xBF400000 }, 0) := by decide +kernel

/-- K1, K3. -/
theorem test_kininv :
    answer (after .kinInv { w0 := 0xBF800000, w1 := 0xC0E00000 } running) =
      some (.ok, { w0 := 0x40400000, w1 := 0x40800000 }, 0) ∧
    answer (after .kinInv { w0 := 0x41C80000, w1 := 0xC1C80000 } running) =
      some (.ok, { w0 := 0x41C80000, w1 := 0x80000000 }, 0) := by decide +kernel

/-- K7. -/
theorem test_kinupdate_rotates :
    (after .kinUpdate { w0 := 0x40400000, w1 := 0x40800000, w2 := 0x41200000 }
      (State.reset.setKin { curX := 0x41C80000, curF := 0x40A00000 })).map (fun t => t.kin) =
      some { curX := 0x40400000, curY := 0x40800000, curF := 0x41200000, lastX := 0x41C80000,
             lastF := 0x40A00000 } := by decide +kernel

/-- K8. -/
theorem test_kinreset :
    (after .kinReset {} (State.reset.setKin ⟨1, 2, 3, 4, 5, 6⟩)).map (fun t => t.kin) = some {} := by
  decide +kernel

/-- K11. -/
theorem test_kinseg_moves :
    answer (after (.kinSeg .A) {}
      (State.reset.setKin { curX := 0x40400000, curY := 0x40800000, curF := 0x41200000 })) =
      some (.ok, { w0 := 0, w1 := 0xBF800000, w2 := 0x40000000 }, 0) ∧
    answer (after (.kinSeg .B) {}
      (State.reset.setKin { curX := 0x40400000, curY := 0x40800000, curF := 0x41200000 })) =
      some (.ok, { w0 := 0x80000000, w1 := 0xC0E00000, w2 := 0x41600000 }, 0) := by decide +kernel

/-- K9 (zero path), K12 (zero feed). -/
theorem test_kinseg_no_motion :
    answer (after (.kinSeg .B) {} (State.reset.setKin { curF := 0x40A00000, lastF := 0x40A00000 })) =
      some (.noMotion, {}, 0x0002) ∧
    answer (after (.kinSeg .A) {} (State.reset.setKin { curX := 0x40400000, curY := 0x40800000 })) =
      some (.noMotion, {}, 0x0001) := by decide +kernel

/-! ### One-step tests: ramp -/

/-- The columns of a `RAMP.INIT` row: status, count answered, `RAMP_TT`, `RAMP_N`. -/
def initRow (r : RampRegs) : Option (Status × Word × Word × Word) :=
  (after (.rampInit .A) {} (rampAt r)).map fun t =>
    (t.op.status, t.op.res.w0, (t.axis .A).ramp.tt, (t.axis .A).ramp.n)

theorem test_rampload_latches :
    (after (.rampLoad .A) { w0 := 1, w1 := 2, w2 := 3 } State.reset).map (fun t => (t.axis .A).ramp) =
      some { cur := 1, last := 2, feed := 3 } := by decide +kernel

/-- G19. -/
theorem test_rampload_busy :
    answer (after (.rampLoad .A) { w0 := 1, w1 := 2, w2 := 3 } (rampAt segG3)) = some (.busy, {}, 0) ∧
    (after (.rampLoad .A) { w0 := 1, w1 := 2, w2 := 3 } (rampAt segG3)).map
      (fun t => (t.axis .A).ramp) = some segG3 := by decide +kernel

/-- G1, G2, G4, G6. -/
theorem test_rampinit_counts :
    initRow (loaded 0x41C80000 0 0x40A00000 oneF) = some (.ok, 6, 0x40A00000, 5) ∧
    initRow (loaded 0x40E00000 0x40E00000 0 oneF) = some (.ok, 1, 0, 0) ∧
    initRow (loaded 0x40E00000 0 twoF oneF) = some (.ok, 5, 0x40600000, 3) ∧
    initRow (loaded twoF 0 twoF oneF) = some (.ok, 1, oneF, 1) := by decide +kernel

/-- G8, G12, G13. -/
theorem test_rampinit_counts_more :
    initRow (loaded 0xC0400000 0x40800000 twoF 0x3F000000) = some (.ok, 8, 0x40600000, 7) ∧
    initRow (loaded 0x427C0000 0 oneF oneF) = some (.ok, 64, 0x427C0000, 63) ∧
    initRow (loaded 0x427A0000 0 oneF oneF) = some (.ok, 64, 0x427A0000, 62) := by decide +kernel

/-- G9, G11, G20. -/
theorem test_rampinit_refusals :
    answer (after (.rampInit .A) {} (rampAt (loaded 0x40A00000 0 0 oneF))) = some (.noMotion, {}, 0x0001) ∧
    answer (after (.rampInit .A) {} (rampAt (loaded 0x42C80000 0 oneF oneF))) =
      some (.allocFault, {}, 0x0004) ∧
    answer (after (.rampInit .A) {} (rampAt segG3)) = some (.busy, {}, 0) := by decide +kernel

/-- G3. -/
theorem test_rampgen_fills :
    (after (.rampGen .A) {} (rampAt segG3)).map (fun t => (t.op.res.w0, (t.axis .A).ramp)) =
      some (4, readyG3 0) := by decide +kernel

/-- G16, G22. -/
theorem test_rampgen_refusals :
    answer (after (.rampGen .A) {} State.reset) = some (.notInit, {}, 0x0010) ∧
    answer (after (.rampGen .A) {} (rampAt (readyG3 1))) = some (.busy, {}, 0) := by decide +kernel

/-- G23: the second and the last waypoint. -/
theorem test_rampnext_drains :
    (after (.rampNext .A) {} (rampAt (readyG3 1))).map (fun t => (t.op.res, (t.axis .A).ramp.rd)) =
      some ({ w0 := 0x40000000, w1 := 2 }, 2) ∧
    (after (.rampNext .A) {} (rampAt (readyG3 3))).map (fun t => (t.op.res, (t.axis .A).ramp.rd)) =
      some ({ w0 := 0x40C00000, w1 := 0 }, 4) := by decide +kernel

/-- G17, G21, G23. -/
theorem test_rampnext_refusals :
    answer (after (.rampNext .A) {} State.reset) = some (.notInit, {}, 0x0010) ∧
    answer (after (.rampNext .A) {} (rampAt segG3)) = some (.notInit, {}, 0x0010) ∧
    answer (after (.rampNext .A) {} (rampAt (readyG3 4))) = some (.empty, {}, 0) := by decide +kernel

/-- G24, G25. -/
theorem test_ramprelease_keeps_operands :
    (after (.rampRelease .A) {} (rampAt (readyG3 1))).map (fun t => (t.axis .A).ramp) =
      some { readyG3 0 with count := 0, n := 0, state := .idle } := by decide +kernel

/-! ### One-step tests: PID -/

/-- C1, first call; C14, an axis that is not configured. -/
theorem test_pidrun_first_call :
    (after (.pidRun .A) { w0 := 0, w1 := 0x41200000, w2 := oneF } (onA { pid := std })).map
      (fun t => (t.op.status, t.op.res.w0, (t.axis .A).pid)) =
      some (.ok, 0x41C80000, stdRunning) ∧
    (after (.pidRun .B) { w0 := 0, w1 := 0x41200000, w2 := oneF } State.reset).map
      (fun t => t.op.res.w0) = some 0 := by decide +kernel

/-- C1, second call and hold. -/
theorem test_pidrun_running_and_hold :
    (after (.pidRun .A) { w0 := 0x40000000, w1 := 0x41200000, w2 := 0x3FC00000 }
      (onA { pid := stdRunning })).map (fun t => (t.op.status, t.op.res.w0, (t.axis .A).pid)) =
      some (.ok, 0x41B40000,
        { stdRunning with integralAccum := 0x40800000, lastError := 0x41000000,
                          filtDeriv := 0xC0000000, lastTime := 0x3FC00000,
                          lastOutput := 0x41B40000 }) ∧
    answer (after (.pidRun .A) { w0 := 0x40400000, w1 := 0x41200000, w2 := oneF }
      (onA { pid := stdRunning })) = some (.hold, { w0 := 0x41C80000 }, 0x0040) := by decide +kernel

/-- C13. -/
theorem test_pidreset_keeps_configuration :
    (after (.pidReset .A) {} (onA { pid := stdRunning })).map (fun t => (t.axis .A).pid) = some std := by
  decide +kernel

/-! ### One-step tests: slots, FIFO, motor output -/

/-- L3. -/
theorem test_slotput_last_writer :
    (after (.slotPut (.pos .A)) { w0 := 0x40400000 } (State.reset.putSlot (.pos .A) 0x41480000)).map
      (fun t => t.slot (.pos .A)) = some ⟨0x40400000, true⟩ := by decide +kernel

/-- L4, L5, in run mode. -/
theorem test_slotput_home_keeps_bit_0 :
    (after (.slotPut .homeReq) { w0 := 0xFFFFFFFE } running).map (fun t => t.slot .homeReq) =
      some ⟨0, true⟩ ∧
    (after (.slotPut .homeReq) { w0 := 3 } running).map (fun t => t.slot .homeReq) =
      some ⟨1, true⟩ := by decide +kernel

/-- L1, L2. -/
theorem test_slotget :
    answer (after (.slotGet (.pos .A)) {} State.reset) = some (.ok, { w0 := 0, w1 := 0 }, 0) ∧
    answer (after (.slotGet (.pos .A)) {} (State.reset.putSlot (.pos .A) 0x41480000)) =
      some (.ok, { w0 := 0x41480000, w1 := 1 }, 0) := by decide +kernel

/-- Two commands and a depth of 2, with a policy (L8, L10). -/
def fullFifo (p : FullPolicy) : State :=
  { State.reset with
    params := { Config.defaultParams with cmdFifoDepth := 2, fullPolicy := p }
    fifo := [cmdX 0x3F800000, cmdX 0x40000000] }

/-- L8, L10. -/
theorem test_fifoput_full :
    (after .fifoPut { w0 := 0x40400000, w3 := 0x40A00000, w4 := 1 } (fullFifo .reject)).map
      (fun t => (t.op.status, t.flags, t.fifo)) =
      some (.full, 0x0100, [cmdX 0x3F800000, cmdX 0x40000000]) ∧
    (after .fifoPut { w0 := 0x40400000, w3 := 0x40A00000, w4 := 1 } (fullFifo .dropOldest)).map
      (fun t => (t.op.status, t.flags, t.fifo)) =
      some (.ok, 0x0100, [cmdX 0x40000000, cmdX 0x40400000]) := by decide +kernel

/-- L12. -/
theorem test_fifoput_appends_unchecked :
    (after .fifoPut { w0 := 0x7FC00000, w1 := 0xFFFFFFFF, w2 := 0x12345678, w3 := 0x80000000,
                      w4 := 0x0000ABCD } { State.reset with fifo := [cmdX 1] }).map (fun t => t.fifo) =
      some [cmdX 1, ⟨0x7FC00000, 0xFFFFFFFF, 0x12345678, 0x80000000, 0x0000ABCD⟩] := by decide +kernel

/-- L9. -/
theorem test_fifoget_oldest_then_empty :
    (after .fifoGet {} (fullFifo .reject)).map (fun t => (t.op.res, t.fifo)) =
      some ({ w0 := 0x3F800000, w3 := 0x40A00000, w4 := 1 }, [cmdX 0x40000000]) ∧
    answer (after .fifoGet {} State.reset) = some (.empty, {}, 0) := by decide +kernel

theorem test_motout_drives :
    (after (.motOut .B) { w0 := 0x80000000 } State.reset).map
      (fun t => ((t.axis .B).dutyOut, (t.axis .B).dutyStb, (t.axis .A).dutyStb)) =
      some (0x80000000, true, false) := by decide +kernel

/-- Y12: in run mode the host may not issue these. -/
theorem test_host_denied_in_run_mode :
    answer (after (.motOut .A) {} running) = some (.denied, {}, 0x4000) ∧
    answer (after (.slotPut (.pos .A)) {} running) = some (.denied, {}, 0x4000) ∧
    answer (after (.cfgWr 0x004) {} running) = some (.denied, {}, 0x4000) := by decide +kernel

/-! ### One event: scheduler, task steps, the offered word -/

/-- The state after the next event, the same state where it is not a next state. -/
def stepTo (s : State) : State :=
  match step s with
  | .next t => t
  | .fault _ => s
  | .refused _ => s

/-- The step answers a next state. -/
def stepsOn (s : State) : Bool :=
  match step s with
  | .next _ => true
  | .fault _ => false
  | .refused _ => false

theorem step_eq_stepTo {s : State} (h : stepsOn s = true) : step s = .next (stepTo s) := by
  unfold stepsOn at h
  unfold stepTo
  cases hs : step s with
  | next t => rfl
  | fault r => cases r
  | refused r => simp [hs] at h

/-- The state after an operation, the same state where it is not a next state. -/
def execTo (i : Instr) (s : State) : State :=
  match exec i s with
  | .next t => t
  | .fault _ => s
  | .refused _ => s

theorem exec_eq_execTo {i : Instr} {s : State}
    (h : (match exec i s with | .next _ => true | .fault _ => false | .refused _ => false) = true) :
    exec i s = .next (execTo i s) := by
  unfold execTo
  cases hs : exec i s with
  | next t => rfl
  | fault r => cases r
  | refused r => simp [hs] at h

/-- A state with given events offered. -/
def offering (s : State) (l : List Event) : State := s.setPending l

/-- T3: the third TICK releases the encoder tasks only. -/
theorem test_tick_releases :
    let t := stepTo (offering { State.reset with schedEn := true, tasks := tasksOf false, schedTime := 2 }
      [.tick])
    t.schedTime = 3 ∧ taskList.map (fun u => (t.task u).ready) = [true, true, false, false, false] ∧
    taskList.map (fun u => (t.task u).wake) = [6, 6, 30, 30, 30] := by decide +kernel

/-- T7, T9: an overrun keeps the step index; the schedule survives the wrap of `SCHED_TIME`. -/
theorem test_tick_overrun_and_wrap :
    let s := offering { State.reset with schedEn := true, schedTime := 0xFFFFFFFE } [.tick]
    let r : TaskRegs := { period := 3, wake := 0xFFFFFFFF, ready := true, tstep := 4 }
    let t := stepTo (s.setTask (.enc .A) r)
    (t.task (.enc .A)).wake = 2 ∧ (t.task (.enc .A)).tstep = 4 ∧ t.flags = 0x0200 ∧
    t.schedTime = 0xFFFFFFFF := by decide +kernel

/-- R203: the first step of `ENC_A` reads the home request; the second waits for the next event. -/
theorem test_task_step_takes_post_action :
    let t := stepTo (offering ((runningAt (.enc .A) 0).putSlot .homeReq 1) [.taskStep, .tick])
    (t.task (.enc .A)).tmp.t0 = 1 ∧ (t.task (.enc .A)).tstep = 1 ∧ t.pending = [.tick] := by
  decide +kernel

/-- R203: a step whose guard is false still ends the step; the last step ends the body. -/
theorem test_task_step_guard_false :
    let t := stepTo (offering (runningAt (.mot .B) 1) [.taskStep])
    (t.axis .B).dutyStb = false ∧ (t.task (.mot .B)).ready = false ∧ (t.task (.mot .B)).tstep = 0 := by
  decide +kernel

/-- R43: the strobe of `MOT.OUT` has ended after the next event, the output keeps its value. -/
theorem test_strobe_is_one_event_long :
    let t := stepTo (offering State.reset [hostEvent (.motOut .A) { w0 := 7 }, .tick])
    (t.axis .A).dutyStb = true ∧ ((stepTo t).axis .A).dutyStb = false ∧
    ((stepTo t).axis .A).dutyOut = 7 := by decide +kernel

/-- The word placed by `withFetchWord` is the next transaction, after reset too. -/
theorem test_offered_word_runs :
    (stepTo (State.reset.withFetchWord 32 0x00003008)).op.res.w0 = 0x00004008 ∧
    (stepTo (State.reset.withFetchWord 32 0x00000950)).flags = 0x8000 := by decide +kernel

/-! ### Witnesses: a concrete state and operands that meet the hypotheses of each statement -/

/-- A host transaction in run mode. -/
def hostRunning : State := running.issue .host {}

theorem witness_EncodeOfDecode : decode 0x00190009#32 = .ok (.cfgWr 0x190) := by decide

theorem witness_LegalWordsAreTheTableWords :
    decode 0x00000851#32 = .ok (.slotGet (.duty .B)) ∧
    (∃ r ∈ opcodeRows, r.spelledBy 0x00000851#32 = true) ∧
    ¬ ∃ r ∈ opcodeRows, r.spelledBy 0x00000951#32 = true := by decide +kernel

theorem witness_IllegalWordIsAnsweredIllegal : decode 0x00000950#32 = .error .slotOutOfRange := by decide

theorem witness_HostEventRunsTheDecodedWord :
    (offering running [.host 0x00000110 {}, .tick]).pending = .host 0x00000110 {} :: [.tick] ∧
    decode 0x00000110#32 = .ok (.encRead .B) := by decide

/-- Guard true before the last step; guard true at the last step; guard false at the last step; guard false
before it. -/
theorem witness_TaskEventRunsTheGuardedStep :
    (let s := offering (runningAt (.enc .A) 0) [.taskStep]
     s.pending = .taskStep :: [] ∧ runningTask s = some (.enc .A) ∧
     bodyStep (.enc .A) (afterTaking s []) 0 = some { instr := .slotGet .homeReq } ∧
     0 + 1 ≠ bodyLen (.enc .A)) ∧
    (let s := offering (runningAt (.enc .B) 8) [.taskStep]
     runningTask s = some (.enc .B) ∧
     bodyStep (.enc .B) (afterTaking s []) 8 = some { instr := .slotPut (.dt .B) } ∧
     8 + 1 = bodyLen (.enc .B)) ∧
    (let s := offering (runningAt (.mot .A) 1) [.taskStep]
     runningTask s = some (.mot .A) ∧ bodyStep (.mot .A) (afterTaking s []) 1 = none ∧
     1 + 1 = bodyLen (.mot .A)) ∧
    (let s := offering (runningAt .ctrl 1) [.taskStep]
     runningTask s = some .ctrl ∧ bodyStep .ctrl (afterTaking s []) 1 = none ∧
     1 + 1 ≠ bodyLen .ctrl) := by decide +kernel

theorem witness_ResetRestoresEveryRegister :
    (offering { running with flags := 1 } [.reset, .tick]).pending = .reset :: [.tick] := by decide

theorem witness_OnlyStartStopResetChangeTheMode :
    let s := offering configured [hostEvent .sysStart {}]
    step s = .next (stepTo s) ∧ (stepTo s).schedEn ≠ s.schedEn :=
  ⟨step_eq_stepTo (by decide +kernel), by decide +kernel⟩

theorem witness_OnlyTheHostMovesTheFaultBit :
    let s := offering running [hostEvent .sysFault {}]
    step s = .next (stepTo s) ∧ (stepTo s).fault ≠ s.fault :=
  ⟨step_eq_stepTo (by decide +kernel), by decide +kernel⟩

theorem witness_HostIsHeldToItsRightsInRunMode :
    hostRunning.hostInRun = true ∧ hostMayInRun (.cfgWr 0x000) = false ∧
    hostMayInRun (.cfgWr 0x002) = false ∧ hostMayInRun .fifoGet = false := by decide

theorem witness_AllowedOperationsDoNotDependOnTheIssuer :
    (hostMayInRun (.cfgWr 0x001) = true ∨ running.schedEn = false) ∧
    (hostMayInRun .fifoGet = true ∨ configured.schedEn = false) := by decide

theorem witness_OnlyCfgWrChangesConfiguration :
    let s := offering configured [hostEvent (.cfgWr 0x110) { w0 := 5 }]
    step s = .next (stepTo s) ∧ regClass (.axis .A .kp) = .cfg ∧
      readReg (stepTo s) (.axis .A .kp) ≠ readReg s (.axis .A .kp) :=
  ⟨step_eq_stepTo (by decide +kernel), by decide +kernel⟩

theorem witness_AxesDoNotInterfere :
    let s := encAt { ovfBound := 1000 } 5
    axisOf (.encRead .A) = some .A ∧ exec (.encRead .A) s = .next (execTo (.encRead .A) s) :=
  ⟨rfl, exec_eq_execTo (by decide +kernel)⟩

theorem witness_StatusesAreThoseOfTheTable :
    exec .fifoGet State.reset = .next (execTo .fifoGet State.reset) ∧
    (execTo .fifoGet State.reset).op.status = .empty :=
  ⟨exec_eq_execTo (by decide +kernel), by decide +kernel⟩

theorem witness_FlagsAreSticky :
    let s := offering { running with flags := 0x8000 } [hostEvent (.cfgWr 0x001) { w0 := 0x8000 }]
    step s = .next (stepTo s) ∧ s.flag .illegal = true ∧ (stepTo s).flag .illegal = false :=
  ⟨step_eq_stepTo (by decide +kernel), by decide +kernel⟩

theorem witness_FlagsRecordTheStatus :
    let s := fullFifo .dropOldest
    exec .fifoPut s = .next (execTo .fifoPut s) ∧ Instr.fifoPut ≠ .sysReset ∧
      Instr.fifoPut ≠ .cfgWr 0x001 ∧ (execTo .fifoPut s).flag .fifoFull = true ∧
      (execTo .fifoPut s).flag .denied = false :=
  ⟨exec_eq_execTo (by decide +kernel), by decide +kernel⟩

theorem witness_NotOkChangesOnlyItsFlag :
    let s := onA { pid := stdRunning }
    exec (.pidRun .A) s = .next (execTo (.pidRun .A) s) ∧ (execTo (.pidRun .A) s).op.status = .hold ∧
    exec .fifoGet s = .next (execTo .fifoGet s) ∧ (execTo .fifoGet s).op.status = .empty :=
  ⟨exec_eq_execTo (by decide +kernel), by decide +kernel, exec_eq_execTo (by decide +kernel),
    by decide +kernel⟩

theorem witness_StartReleasesEveryTask :
    running.schedEn = true ∧
    (State.reset.schedEn = false ∧ (State.reset.task .ctrl).period = 0) ∧
    (configured.setAxis .A { ramp := segG3 }).schedEn = false ∧
    ((configured.setAxis .A { ramp := segG3 }).axis .A).ramp.state = .allocated ∧
    configured.schedEn = false ∧ (∀ u ∈ taskList, (configured.task u).period ≠ 0) ∧
    (∀ a ∈ [Axis.A, .B], (configured.axis a).ramp.state ≠ .allocated) := by decide

/-- Mapped and unmapped addresses where the regions of the map meet. -/
theorem witness_CfgReadAnswersTheRegister :
    let p := Config.defaultParams
    regAt p 0x003 = some .params ∧ regAt p 0x004 = none ∧ regAt p 0x00C = some (.period (.mot .B)) ∧
    regAt p 0x00D = none ∧ regAt p 0x071 = some (.slotValid (.duty .B)) ∧ regAt p 0x072 = none ∧
    regAt p 0x1B0 = some (.axis .B .sp) ∧ regAt p 0x1B1 = none ∧
    regAt p 0x43F = some (.rampBuf .A 63) ∧ regAt p 0x440 = none ∧
    regAt { p with rampCap := 256 } 0x5FF = some (.rampBuf .B 255) ∧
    regAt { p with rampCap := 256 } 0x600 = none ∧
    ({ p with cmdFifoDepth := 255, rampCap := 256 } : Params).wellFormed = true ∧
    (fullFifo .reject).fifo.length ≤ (fullFifo .reject).params.cmdFifoDepth := by decide +kernel

theorem witness_CfgWriteStoresByClass :
    let p := Config.defaultParams
    hostRunning.hostInRun = true ∧ regAt p 0x001 = some .flags ∧ configured.hostInRun = false ∧
    regAt p 0xFFF = none ∧ regAt p 0x000 = some .ctrl ∧ regClass .ctrl = .ro ∧
    regAt p 0x120 = some (.axis .A .rampSlice) ∧ regClass (.axis .A .rampSlice) = .cfg ∧
    regAt p 0x185 = some (.axis .B .encInverted) ∧ regClass (.axis .B .encInverted) = .cfg := by
  decide +kernel

/-- What `RegisterMapIsTheAddressTable` says on both sides at the end of a buffer of 64 words. -/
theorem witness_RegisterMapIsTheAddressTable :
    regAt Config.defaultParams 0x53F = some (.rampBuf .B 63) ∧ regAddr (.rampBuf .B 63) = 0x53F ∧
    regAt Config.defaultParams 0x540 = none ∧ regAddr (.rampBuf .B 64) = 0x540 := by decide +kernel

/-- "Allowed": the host in configuration mode, and a task in run mode. It is the only hypothesis of
EncReadAccumulatesTheCorrectedDelta, EncZeroClearsThePositionOnly, EncConversionsAreReadOnly,
StopwatchRestartAndLap, KinematicsRotatesAndResets, RampReleaseGoesToIdle, PidResetReturnsToTheInitialState
and of the first part of MotorOutputDrivesThePattern. -/
theorem witness_allowed :
    (configured.issue .host {}).hostInRun = false ∧
    (running.issue (.task (.enc .A)) {}).hostInRun = false := by decide

/-- Bounds 32767 and 1, the greatest movements both ways. -/
theorem witness_EncoderTracksAnUnboundedCounter :
    let s := encAt { ovfBound := 32767, lastRaw := 1 } 0
    let ds : List Int := [32767, -32767, 0]
    let s' := offering s (sampleEvents s.ports .A (counterValues 1 ds) ++ [.tick])
    1 ≤ (s'.axis .A).enc.ovfBound.toInt ∧ (s'.axis .A).enc.ovfBound.toInt ≤ 32767 ∧
    (∀ d ∈ ds, |d| ≤ (s'.axis .A).enc.ovfBound.toInt) ∧ s'.schedEn = false ∧
    s'.pending = sampleEvents s'.ports .A (counterValues (s'.axis .A).enc.lastRaw ds) ++ [.tick] ∧
    1 ≤ (1#32).toInt ∧ ∀ d ∈ ([1, -1] : List Int), |d| ≤ (1#32).toInt := by decide +kernel

theorem witness_BoundViolationIsSilent :
    (let s := encAt { ovfBound := 32767 } 0x8000
     s.hostInRun = false ∧ (1 : Int) ≤ (s.axis .A).enc.ovfBound.toInt ∧
     (s.axis .A).enc.ovfBound.toInt < |(-32768 : Int)| ∧
     s.portEnc .A = (s.axis .A).enc.lastRaw + BitVec.ofInt 16 (-32768)) ∧
    (let s := encAt { ovfBound := 1, lastRaw := 0xFFFF } 1
     s.hostInRun = false ∧ (1 : Int) ≤ (s.axis .A).enc.ovfBound.toInt ∧
     (s.axis .A).enc.ovfBound.toInt < |(2 : Int)| ∧
     s.portEnc .A = (s.axis .A).enc.lastRaw + BitVec.ofInt 16 2) := by decide +kernel

/-- Zero path; zero feed on a path that is not zero; a segment. -/
theorem witness_KinSegGuardsTheZeroDistance :
    State.reset.hostInRun = false ∧
    Num.feq (pathLen {}) zeroF = true ∧
    Num.feq (pathLen { curX := oneF }) zeroF = false ∧ Num.feq zeroF zeroF = true ∧
    Num.feq (pathLen { curX := oneF, curF := oneF }) zeroF = false ∧ Num.feq oneF zeroF = false := by
  decide +kernel

theorem witness_RampLoadLatchesInIdleOnly :
    (rampAt segG3).hostInRun = false ∧ ((rampAt segG3).axis .A).ramp.state ≠ .idle ∧
    (State.reset.axis .A).ramp.state = .idle := by decide

/-- Not idle; a distance at zero feed; 65 waypoints and 64 for a buffer of 64. -/
theorem witness_RampInitSizesTheSegment :
    (rampAt segG3).hostInRun = false ∧ segG3.state ≠ .idle ∧
    travelTime (loaded 0x40A00000 0 0 oneF) = none ∧
    travelTime (loaded 0x42800000 0 oneF oneF) = some 0x42800000 ∧
    Config.defaultParams.rampCap < waypointCount 0x42800000 oneF ∧
    travelTime (loaded 0x427C0000 0 oneF oneF) = some 0x427C0000 ∧
    waypointCount 0x427C0000 oneF ≤ Config.defaultParams.rampCap := by decide +kernel

/-- Each state of the generator; a segment of one waypoint, and one that fills the buffer. -/
theorem witness_RampGenInterpolates :
    (rampAt segG3).hostInRun = false ∧ (rampAt segG3).params.wellFormed = true ∧
    rampOk 64 {} = true ∧ rampOk 64 (readyG3 4) = true ∧ (readyG3 4).state = .ready ∧
    rampOk 64 { segG3 with count := 1 } = true ∧ rampOk 64 { segG3 with count := 64 } = true ∧
    segG3.state = .allocated := by decide +kernel

/-- Not ready; drained; not drained. Then a run of three calls that ends at the last waypoint. -/
theorem witness_RampNextTakesTheWaypointsInOrder :
    ((rampAt (readyG3 4)).hostInRun = false ∧ segG3.state ≠ .ready ∧ (readyG3 4).state = .ready ∧
      (readyG3 4).rd = (readyG3 4).count ∧ (readyG3 3).rd ≠ (readyG3 3).count) ∧
    (let s := offering (rampAt (readyG3 1))
      (List.replicate (2 + 1) (hostEvent (.rampNext .A) {}) ++ [.tick])
     (s.axis .A).ramp.state = .ready ∧
      (s.axis .A).ramp.rd.toNat + 2 < (s.axis .A).ramp.count.toNat ∧ s.schedEn = false ∧
      s.pending = List.replicate (2 + 1) (hostEvent (.rampNext .A) {}) ++ [.tick]) := by decide

/-- A first call; a call with `dt = 0` and one with `dt < 0`. -/
theorem witness_PidFirstCallAndHold :
    (onA { pid := std }).hostInRun = false ∧ std.pidInit = false ∧ stdRunning.pidInit = true ∧
    Num.fgt (Num.fsub oneF stdRunning.lastTime) zeroF = false ∧
    Num.fgt (Num.fsub 0 stdRunning.lastTime) zeroF = false := by decide +kernel

theorem witness_PidRunningUpdate :
    (onA { pid := stdRunning }).hostInRun = false ∧ stdRunning.pidInit = true ∧
    Num.fgt (Num.fsub twoF stdRunning.lastTime) zeroF = true := by decide +kernel

/-- Vector C1's second call meets the premises of both parts. -/
theorem witness_PidOutputAndIntegralStayInRange :
    let s := (onA { pid := stdRunning }).issue .host { w0 := twoF, w1 := 0x41200000, w2 := twoF }
    let t := execTo (.pidRun .A) s
    let p := (s.axis .A).pid
    let q := (t.axis .A).pid
    (s.hostInRun = false ∧ exec (.pidRun .A) s = .next t) ∧ t.op.status = .ok ∧
    Num.isFinite p.satLow = true ∧ Num.isFinite p.satHigh = true ∧ Num.fle p.satLow p.satHigh = true ∧
    Num.isFinite (Num.fmul p.deadbandPct s.params.dbScale) = true ∧
    Num.isNaN (Num.fadd (Num.fadd (Num.fmul p.kp (Num.fsub s.op.args.w1 s.op.args.w0))
      (Num.fmul p.ki q.integralAccum)) (Num.fmul p.kd q.filtDeriv)) = false ∧
    p.pidInit = true ∧ Num.fle zeroF p.integralMax = true ∧ Num.isNaN q.integralAccum = false :=
  ⟨⟨rfl, exec_eq_execTo (by decide +kernel)⟩, by decide +kernel⟩

theorem witness_SlotsHoldTheLatestValue :
    (configured.hostInRun = false ∨ Slot.duty .B = .homeReq) ∧
    (hostRunning.hostInRun = false ∨ Slot.homeReq = .homeReq) := by decide

/-- One below the depth; at it, with each policy; an empty and a full queue to get from. -/
theorem witness_FifoPutAndGet :
    ({ fullFifo .reject with fifo := [cmdX 1] } : State).fifo.length <
      (fullFifo .reject).params.cmdFifoDepth ∧
    (fullFifo .reject).params.cmdFifoDepth ≤ (fullFifo .reject).fifo.length ∧
    (fullFifo .reject).params.fullPolicy = .reject ∧
    (fullFifo .dropOldest).params.cmdFifoDepth ≤ (fullFifo .dropOldest).fifo.length ∧
    (fullFifo .dropOldest).params.fullPolicy = .dropOldest ∧
    State.reset.hostInRun = false ∧ State.reset.fifo = [] ∧ (fullFifo .reject).hostInRun = false ∧
    (fullFifo .reject).fifo = cmdX 0x3F800000 :: [cmdX 0x40000000] := by decide

/-- A queue of one with one more put behind it, which fills the FIFO; the last entry is got. -/
theorem witness_FifoPreservesInsertionOrder :
    let cs := [cmdX 2]
    let s := offering { fullFifo .reject with fifo := [cmdX 1] }
      (cs.map (fun c => hostEvent .fifoPut (wordsOf c)) ++
        List.replicate (1 + 1) (hostEvent .fifoGet {}) ++ [.tick])
    s.schedEn = false ∧ s.fifo.length + cs.length ≤ s.params.cmdFifoDepth ∧
    (s.fifo ++ cs)[1]? = some (cmdX 2) ∧
    s.pending = cs.map (fun c => hostEvent .fifoPut (wordsOf c)) ++
      List.replicate (1 + 1) (hostEvent .fifoGet {}) ++ [.tick] := by decide

/-- Configuration mode; run mode with a task that is due and ready, one due and not ready, one not due. -/
theorem witness_TickReleasesTheDueTasks :
    let s := offering ({ runningAt (.enc .A) 4 with schedTime := 2 }) [.tick]
    (offering configured [.tick]).pending = .tick :: [] ∧ configured.schedEn = false ∧
    s.pending = .tick :: [] ∧ s.schedEn = true ∧
    s.schedTime + 1 = (s.task (.enc .A)).wake ∧ (s.task (.enc .A)).ready = true ∧
    s.schedTime + 1 = (s.task (.enc .B)).wake ∧ (s.task (.enc .B)).ready = false ∧
    s.schedTime + 1 ≠ (s.task .ctrl).wake := by decide

theorem witness_OnlyTheFirstReadyTaskSteps :
    let s := offering running [.taskStep]
    (s.pending = .taskStep :: [] ∧ step s = .next (stepTo s)) ∧ runningTask s = some (.enc .A) ∧
    (offering configured [.taskStep]).pending = .taskStep :: [] ∧
    runningTask (offering configured [.taskStep]) = none :=
  ⟨⟨rfl, step_eq_stepTo (by decide +kernel)⟩, by decide +kernel⟩

theorem witness_TasksWriteOnlyWhatTheyOwn :
    let s := offering (runningAt .ctrl 0) [.taskStep]
    step s = .next (stepTo s) ∧ nextEvent s = .taskStep ∧ runningTask s = some .ctrl ∧
    ownsReg .ctrl (.axis .A .encAbs) = false ∧ ownsReg .ctrl (.axis .A .kp) = false :=
  ⟨step_eq_stepTo (by decide +kernel), by decide +kernel⟩

/-- With a lap of 0 and with a lap of 1. -/
theorem witness_EncoderBodyPublishesTheSample :
    let s := offering (runningAt (.enc .B) 0) (List.replicate 9 .taskStep ++ [.tick])
    runningTask s = some (.enc .B) ∧ (s.task (.enc .B)).tstep = 0 ∧
    s.pending = List.replicate 9 .taskStep ++ [.tick] ∧
    u16Word (s.portSw .B - (s.axis .B).sw.last) = 0 ∧
    u16Word ((s.setPorts { swCntB := 1 }).portSw .B - (s.axis .B).sw.last) ≠ 0 := by decide +kernel

theorem witness_MotorBodyDrivesTheDutySlot :
    let s := offering (runningAt (.mot .B) 0) (List.replicate 2 .taskStep ++ [.tick])
    runningTask s = some (.mot .B) ∧ (s.task (.mot .B)).tstep = 0 ∧
    s.pending = List.replicate 2 .taskStep ++ [.tick] := by decide +kernel

/-- In the fault state; and without it, the home request asserted. -/
theorem witness_ControlBodyFaultAndHomeSections :
    let s := offering (runningAt .ctrl 0) (List.replicate 32 .taskStep ++ [.tick])
    let h := s.putSlot .homeReq 1
    runningTask (s.setFault true) = some .ctrl ∧ (s.task .ctrl).tstep = 0 ∧
    (s.setFault true).pending = List.replicate 32 .taskStep ++ [.tick] ∧ (s.setFault true).fault = true ∧
    runningTask h = some .ctrl ∧ h.pending = List.replicate 32 .taskStep ++ [.tick] ∧ h.fault = false ∧
    ((h.slot .homeReq).valid && (h.slot .homeReq).val.getLsbD 0) = true := by decide +kernel

/-- An empty FIFO and idle generators; a queued command and idle generators; `READY` generators, one of them
with one waypoint left; a home request that is valid and not asserted, and one that was never made. -/
theorem witness_ControlBodyNormalSection :
    let s := offering (runningAt .ctrl 0) (List.replicate 32 .taskStep ++ [.tick])
    let c := { s with fifo := [cmdX 0x41C80000] }
    let r := ((s.setAxis .A { ramp := readyG3 1 }).setAxis .B { ramp := readyG3 3 }).putSlot .homeReq 2
    (∀ x ∈ [s, c, r], runningTask x = some .ctrl ∧ (x.task .ctrl).tstep = 0 ∧
      x.pending = List.replicate 32 .taskStep ++ [.tick] ∧ x.fault = false ∧
      ((x.slot .homeReq).valid && (x.slot .homeReq).val.getLsbD 0) = false) ∧
    (s.slot .homeReq).valid = false ∧ (r.slot .homeReq).valid = true := by decide +kernel

theorem witness_FaultStateKeepsTheDutySlotsAtZeroInRunMode :
    let s := offering ((runningAt .ctrl 28).enterFault) [.taskStep]
    step s = .next (stepTo s) ∧ s.schedEn = true ∧ s.fault = true ∧ s.dutySlotsZero = true ∧
    (stepTo s).schedEn = true ∧ (stepTo s).fault = true :=
  ⟨step_eq_stepTo (by decide +kernel), by decide +kernel⟩

theorem witness_ResetMeetsTheInvariants :
    (fullFifo .dropOldest).params.wellFormed = true := by decide

theorem witness_InvariantIsKept :
    let s := offering ((running.setAxis .A { ramp := readyG3 2 }).putSlot (.pos .A) 5) [.taskStep]
    step s = .next (stepTo s) ∧ s.invariant = true :=
  ⟨step_eq_stepTo (by decide +kernel), by decide +kernel⟩

/-- Step 18 of `CTRL` with a command fetched and both generators allocated. -/
theorem witness_OneSegmentIsKept :
    let s₁ := (runningAt .ctrl 18).mapTmp .ctrl fun T => { T with t4 := 1 }
    let s := offering ((s₁.setAxis .A { ramp := segG3 }).setAxis .B { ramp := segG3 }) [.taskStep]
    step s = .next (stepTo s) ∧ s.oneSegment = true :=
  ⟨step_eq_stepTo (by decide +kernel), by decide +kernel⟩

/-- NaN and -1; +infinity; 2^31; the greatest pattern below it, and 1/2. -/
theorem witness_SliceCountIsTheFloor :
    Num.isNaN 0x7FC00000 = true ∧ Num.flt 0xBF800000 zeroF = true ∧
    (Num.isNaN 0x7F800000 = false ∧ Num.flt 0x7F800000 zeroF = false ∧ Num.isInf 0x7F800000 = true) ∧
    (Num.isFinite 0x4F000000 = true ∧ Num.flt 0x4F000000 zeroF = false ∧
      Num.significand 0x4F000000 = 2 ^ 23 ∧ Num.exponent 0x4F000000 = 8) ∧
    (Num.isFinite 0x4EFFFFFF = true ∧ Num.flt 0x4EFFFFFF zeroF = false ∧
      Num.significand 0x4EFFFFFF = 2 ^ 24 - 1 ∧ Num.exponent 0x4EFFFFFF = 7) := by decide +kernel

/-- The values the last two clauses compare: 2^31 and the value next below it. -/
theorem witness_f32Value_at_the_bound :
    (2 : ℚ) ^ 31 ≤ f32Value 0x4F000000 ∧ f32Value 0x4EFFFFFF < (2 : ℚ) ^ 31 := by
  have h1 : Num.significand 0x4F000000 = 8388608 ∧ Num.exponent 0x4F000000 = (8 : Nat) := by decide +kernel
  have h2 : Num.significand 0x4EFFFFFF = 16777215 ∧ Num.exponent 0x4EFFFFFF = (7 : Nat) := by decide +kernel
  have h3 : (0x4F000000 : Word).msb = false ∧ (0x4EFFFFFF : Word).msb = false := by decide
  unfold f32Value
  rw [h1.1, h1.2, h2.1, h2.2, h3.1, h3.2, zpow_natCast, zpow_natCast]
  norm_num

end Sys2Proof.Tests
end

/-! ### Host transactions: a step on a pending host word (spec/20_memory.md R66, R67) -/

namespace Sys2Proof

@[simp] theorem decodeA_rawA (op : BitVec 8) (a : Axis) (f : Axis → Instr) :
    decodeA (rawA op a) f = .ok (f a) :=
  decodeA_ok.2 ⟨rfl, a, rfl, rfl⟩

@[simp] theorem decodeS_rawS (op : BitVec 8) (k : Slot) (f : Slot → Instr) :
    decodeS (rawS op k) f = .ok (f k) :=
  decodeS_ok.2 ⟨rfl, k, rfl, rfl⟩

@[simp] theorem decodeR_rawR (op : BitVec 8) (addr : RegAddr) (f : RegAddr → Instr) :
    decodeR (rawR op addr) f = .ok (f addr) :=
  decodeR_ok.2 ⟨rfl, rfl⟩

/-- Each row of the table of R82, read back by the decoder of its format (R81); a row of format N has no
operand, so reading it back is one evaluation. -/
theorem decodeRaw_rawOf (i : Instr) : decodeRaw (rawOf i) = .ok i := by
  cases i with
  | nop | sysReset | sysStart | sysStop | sysFault | sysClrfault | kinUpdate | kinReset | kinFwd | kinInv
  | fifoPut | fifoGet => rfl
  | encRead a | encZero a | encPos a | encDpos a | swRestart a | swLap a | kinSeg a | rampLoad a
  | rampInit a | rampGen a | rampNext a | rampRelease a | pidRun a | pidReset a | motOut a =>
    exact decodeA_rawA _ a _
  | slotPut k | slotGet k => exact decodeS_rawS _ k _
  | cfgRd addr | cfgWr addr => exact decodeR_rawR _ addr _

theorem decode_encode (i : Instr) : decode (encode i) = .ok i := by
  rw [decode, encode, splitWord_packWord, decodeRaw_rawOf]

end Sys2Proof

namespace Sys2Proof.Machine

open Sys2Proof Host

@[simp] theorem fetchWord_toNat (w : Word) : fetchWord 32 w.toNat = w := by
  rw [fetchWord, Nat.mod_eq_of_lt w.isLt, BitVec.ofNat_toNat, BitVec.setWidth_eq]

theorem hostTransaction_of_decode {w : Word} {i : Instr} (h : decode w = .ok i) (args : Words5)
    (s : State) : hostTransaction w args s = exec i (s.issue .host args) := by
  simp only [hostTransaction, h]

theorem nextEvent_of_pending {s : State} {e : Event} {rest : List Event} (h : s.pending = e :: rest) :
    nextEvent s = e := by
  simp only [nextEvent, h]

theorem takeEvent_of_pending {s : State} {e : Event} {rest : List Event} (h : s.pending = e :: rest) :
    takeEvent s = afterTaking s rest := by
  simp only [takeEvent, afterTaking, h]

/-- A step on a pending host event is the host's transaction (R66, R67). -/
theorem step_host {s : State} {w : Word} {args : Words5} {rest : List Event}
    (h : s.pending = .host w args :: rest) :
    step s = hostTransaction w args (afterTaking s rest) := by
  rw [step, stepEvent, nextEvent_of_pending h, takeEvent_of_pending h, applyEvent]

theorem withFetchWord_pending (s : State) (w : Word) :
    (s.withFetchWord 32 w.toNat).pending = .host w {} :: s.pending := by
  rw [State.withFetchWord, offerWord, setPending_pending, fetchWord_toNat]

/-- Only the pending events of a state with an offered word differ, and taking one replaces them. -/
theorem afterTaking_withFetchWord (s : State) (n w : Nat) (rest : List Event) :
    afterTaking (s.withFetchWord n w) rest = afterTaking s rest := rfl

/-- Settles O6: a step on a pending host word is the host's transaction, which is `exec` of the operation
decoded; the word placed by `withFetchWord` is such a pending word, and it decodes. -/
theorem hostEventRunsTheDecodedWord : Obligations.HostEventRunsTheDecodedWord := by
  refine ⟨fun s w args rest i hp hw => ?_, fun s i => ?_⟩
  · rw [step_host hp, hostTransaction_of_decode hw]
  · rw [step_host (withFetchWord_pending s (encode i)), hostTransaction_of_decode (decode_encode i),
      afterTaking_withFetchWord]

end Sys2Proof.Machine

/-! ### The slice count `f2n` (spec/00_scope.md R18) -/

namespace Sys2Proof.Machine.Num

open Sys2Proof

/-- `m * 2 ^ e` without its fraction bits: what `f2n` saturates. -/
def truncate (m : Nat) (e : Int) : Nat :=
  if 0 ≤ e then m * 2 ^ e.toNat else m / 2 ^ (-e).toNat

/-- Cutting off the fraction bits is the floor of the exact value. -/
theorem truncate_eq_floor (m : Nat) (e : Int) : (truncate m e : Int) = ⌊(m : ℚ) * 2 ^ e⌋ := by
  unfold truncate
  split
  next he =>
    lift e to ℕ using he
    rw [Int.toNat_natCast, zpow_natCast, ← Int.floor_natCast (R := ℚ) (m * 2 ^ e)]
    push_cast
    rfl
  next he =>
    obtain ⟨n, rfl⟩ : ∃ n : ℕ, e = -n := ⟨(-e).toNat, by omega⟩
    rw [neg_neg, Int.toNat_natCast, zpow_neg, zpow_natCast, ← div_eq_mul_inv]
    exact_mod_cast (Rat.floor_natCast_div_natCast m (2 ^ n)).symm

theorem f2n_of_isNaN {x : Word} (h : isNaN x = true) : f2n x = 0 := by simp [f2n, h]

theorem f2n_of_negative {x : Word} (h : flt x zeroF = true) : f2n x = 0 := by simp [f2n, h]

theorem f2n_of_isInf {x : Word} (hn : isNaN x = false) (hp : flt x zeroF = false) (h : isInf x = true) :
    f2n x = 2 ^ 31 - 1 := by simp [f2n, hn, hp, h]

theorem isNaN_of_isFinite {x : Word} (h : isFinite x = true) : isNaN x = false := by
  simp_all [isFinite, isNaN]

theorem isInf_of_isFinite {x : Word} (h : isFinite x = true) : isInf x = false := by
  simp_all [isFinite, isInf]

theorem f2n_of_isFinite {x : Word} (hf : isFinite x = true) (hp : flt x zeroF = false) :
    f2n x = min (truncate (significand x) (exponent x)) (2 ^ 31 - 1) := by
  simp [f2n, isNaN_of_isFinite hf, isInf_of_isFinite hf, hp, truncate]

theorem significand_of_magnitude_zero {x : Word} (h : magnitude x = 0) : significand x = 0 := by
  have he : expField x = 0 := by unfold expField; unfold magnitude at h; omega
  have hf : fracField x = 0 := by unfold fracField; unfold magnitude at h; omega
  rw [significand, if_pos he, hf]

/-- A pattern with its sign bit set that is not below zero is the negative zero. -/
theorem significand_of_msb {x : Word} (hn : isNaN x = false) (hp : flt x zeroF = false)
    (hm : x.msb = true) : significand x = 0 := by
  have h0 : isNaN zeroF = false ∧ order zeroF = 0 := by decide
  have ho : 0 ≤ order x := by simpa [flt, hn, h0] using hp
  rw [order, if_pos hm] at ho
  exact significand_of_magnitude_zero (by omega)

end Sys2Proof.Machine.Num

namespace Sys2Proof.Machine

open Sys2Proof

/-- The value of a pattern that is not below zero needs no sign. -/
theorem f32Value_of_not_negative {x : Word} (hn : Num.isNaN x = false) (hp : Num.flt x zeroF = false) :
    f32Value x = (Num.significand x : ℚ) * 2 ^ Num.exponent x := by
  cases hm : x.msb with
  | false => simp [f32Value, hm]
  | true => simp [f32Value, Num.significand_of_msb hn hp hm]

/-- `f2n` of a number that is not below zero is the floor of its value, saturated. -/
theorem f2n_eq_min_floor {x : Word} (hf : Num.isFinite x = true) (hp : Num.flt x zeroF = false) :
    (Num.f2n x : Int) = min ⌊f32Value x⌋ (2 ^ 31 - 1) := by
  rw [Num.f2n_of_isFinite hf hp, f32Value_of_not_negative (Num.isNaN_of_isFinite hf) hp,
    ← Num.truncate_eq_floor]
  push_cast
  rfl

/-- Settles O60: off the NaNs, the negatives and the infinity `f2n` is the saturated floor, which saturates
exactly from `2 ^ 31` on. -/
theorem sliceCountIsTheFloor : Obligations.SliceCountIsTheFloor := by
  intro x
  refine ⟨?zero, Num.f2n_of_isInf, ?saturated, ?floor⟩
  case zero =>
    rintro (hn | hneg)
    · exact Num.f2n_of_isNaN hn
    · exact Num.f2n_of_negative hneg
  case saturated =>
    intro hf hp hge
    have hfloor : (2 ^ 31 : Int) ≤ ⌊f32Value x⌋ := Int.le_floor.2 (by exact_mod_cast hge)
    have h := f2n_eq_min_floor hf hp
    omega
  case floor =>
    intro hf hp hlt
    have hfloor : ⌊f32Value x⌋ < (2 ^ 31 : Int) := Int.floor_lt.2 (by exact_mod_cast hlt)
    rw [f2n_eq_min_floor hf hp, min_eq_left (by omega)]

end Sys2Proof.Machine

/-! ### The effect of an operation: one rule for each way an operation can change the state

`Effect s i x` lists, operation by operation, every state an operation can leave but for its response;
`exec_effect` ties it to `exec`. What every operation keeps is then one case analysis over `Effect`. -/

namespace Sys2Proof.Machine

open Sys2Proof Host

/-- The flag an operation raises, and when it can (spec/60_exceptions.md R251, R252). -/
inductive Raises (s : State) : Instr → Flag → Prop
  | hostDenied {i : Instr} (hrun : s.hostInRun = true) : Raises s i .denied
  | startDenied : Raises s .sysStart .denied
  | writeDenied (addr : RegAddr) : Raises s (.cfgWr addr) .denied
  | readIllegal (addr : RegAddr) : Raises s (.cfgRd addr) .illegal
  | writeIllegal (addr : RegAddr) : Raises s (.cfgWr addr) .illegal
  | segNoMotion (a : Axis) : Raises s (.kinSeg a) (.noMotion a)
  | initNoMotion (a : Axis) : Raises s (.rampInit a) (.noMotion a)
  | initAlloc (a : Axis) : Raises s (.rampInit a) (.alloc a)
  | genNotInit (a : Axis) (hst : (s.axis a).ramp.state = .idle) : Raises s (.rampGen a) (.notInit a)
  | nextNotInit (a : Axis) (hst : (s.axis a).ramp.state ≠ .ready) : Raises s (.rampNext a) (.notInit a)
  | hold (a : Axis) : Raises s (.pidRun a) (.dtHold a)
  | fifoFull : Raises s .fifoPut .fifoFull

/-- The encoder operations that write (spec/40_encoder.md R101, R102), `raw` being the counter. -/
inductive EncWrite (raw : Half) (a : Axis) (e : EncRegs) : Instr → EncRegs → Prop
  | read : EncWrite raw a e (.encRead a) (encSampled e raw)
  | zero : EncWrite raw a e (.encZero a) { e with abs := 0 }

/-- The stopwatch operations (R105, R106), `c` being the counter. -/
inductive SwWrite (c : Half) (a : Axis) (r : SwRegs) : Instr → SwRegs → Prop
  | restart : SwWrite c a r (.swRestart a) { r with last := 0, count := 0 }
  | lap : SwWrite c a r (.swLap a) { r with count := c, last := c }

/-- The controller operations (spec/43_pid.md R161, R162, R164). -/
inductive PidWrite (a : Axis) (p : PidRegs) : Instr → PidRegs → Prop
  | first (error now out : Word) : PidWrite a p (.pidRun a) (pidLatch p error now out)
  | running (error dt now out : Word) :
      PidWrite a p (.pidRun a) (pidLatch (pidUpdated p error dt) error now out)
  | reset : PidWrite a p (.pidReset a) (pidCleared p)

/-- The ramp operations (spec/42_ramp.md R141 to R146) for a waypoint buffer of `cap` words. -/
inductive RampWrite (cap : Nat) (a : Axis) (r : RampRegs) : Instr → RampRegs → Prop
  | load (cur last feed : Word) (hst : r.state = .idle) :
      RampWrite cap a r (.rampLoad a) { r with cur := cur, last := last, feed := feed }
  | init (tt : Word) (hst : r.state = .idle) (hcap : waypointCount tt r.slice ≤ cap) :
      RampWrite cap a r (.rampInit a)
        { r with
          tt := tt
          n := u32Word (sliceCount tt r.slice)
          count := u32Word (waypointCount tt r.slice)
          rd := 0
          state := .allocated }
  | gen (hst : r.state = .allocated) :
      RampWrite cap a r (.rampGen a) { r with buf := generated r, termFeed := r.feed, rd := 0, state := .ready }
  | next (hst : r.state = .ready) (hrd : r.rd ≠ r.count) :
      RampWrite cap a r (.rampNext a) { r with rd := r.rd + 1 }
  | release : RampWrite cap a r (.rampRelease a) { r with state := .idle, count := 0, rd := 0, n := 0 }

/-- An operation of one axis that writes: the part of the axis's registers it writes. -/
inductive AxisWrite (s : State) (a : Axis) : Instr → AxisRegs → Prop
  | enc {i : Instr} {e : EncRegs} (h : EncWrite (s.portEnc a) a (s.axis a).enc i e) :
      AxisWrite s a i { s.axis a with enc := e }
  | sw {i : Instr} {r : SwRegs} (h : SwWrite (s.portSw a) a (s.axis a).sw i r) :
      AxisWrite s a i { s.axis a with sw := r }
  | pid {i : Instr} {p : PidRegs} (h : PidWrite a (s.axis a).pid i p) :
      AxisWrite s a i { s.axis a with pid := p }
  | ramp {i : Instr} {r : RampRegs} (h : RampWrite s.params.rampCap a (s.axis a).ramp i r) :
      AxisWrite s a i { s.axis a with ramp := r }
  | duty (w : Word) : AxisWrite s a (.motOut a) { s.axis a with dutyOut := w, dutyStb := true }

/-- The states an operation can leave, but for its response: an upper bound, of which `keeps` stands for every
answer that changes nothing. -/
inductive Effect (s : State) : Instr → State → Prop
  | keeps (i : Instr) : Effect s i s
  | raises {i : Instr} {g : Flag} (h : Raises s i g) : Effect s i (s.raise g)
  | axis {i : Instr} {a : Axis} {x : AxisRegs} (h : AxisWrite s a i x) : Effect s i (s.setAxis a x)
  | reset : Effect s .sysReset s.restart
  | start (hmode : s.schedEn = false) (hok : startRefused s = false) :
      Effect s .sysStart ((taskList.foldl startTask (s.setTime 0)).setSchedEn true)
  | stop : Effect s .sysStop (taskList.foldl stopTask (s.setSchedEn false))
  | fault : Effect s .sysFault s.enterFault
  | clrfault : Effect s .sysClrfault s.leaveFault
  | clearFlags : Effect s (.cfgWr 0x001) (s.setFlags (clearFlagBits s.flags s.op.args.w0))
  | config {addr : RegAddr} {r : Reg} (hrun : s.hostInRun = false) (hreg : regAt s.params addr = some r)
      (hcls : regClass r = .cfg) : Effect s (.cfgWr addr) (writeCfgReg s r s.op.args.w0)
  | kinUpdate (k : KinRegs) : Effect s .kinUpdate (s.setKin k)
  | kinReset : Effect s .kinReset (s.setKin {})
  | put (k : Slot) : Effect s (.slotPut k) (s.putSlot k s.op.args.w0)
  | push (e : Command) (hlen : s.fifo.length < s.params.cmdFifoDepth) :
      Effect s .fifoPut (s.setFifo (s.fifo ++ [e]))
  | pushDrop (e : Command) :
      Effect s .fifoPut ((s.raise .fifoFull).setFifo (s.fifo.tail ++ [e]))
  | pop {e : Command} {rest : List Command} (hq : s.fifo = e :: rest) : Effect s .fifoGet (s.setFifo rest)

/-- An effect of the operation, and a response (spec/00_scope.md R13). -/
def Performs (i : Instr) (s t : State) : Prop :=
  ∃ x st r, Effect s i x ∧ t = x.respond st r

theorem Effect.performs {i : Instr} {s x : State} (h : Effect s i x) (st : Status) (r : Words5) :
    Performs i s (x.respond st r) := ⟨x, st, r, h, rfl⟩

theorem performs_respond (i : Instr) (s : State) (st : Status) (r : Words5) :
    Performs i s (s.respond st r) := (Effect.keeps i).performs st r

theorem performs_reject {i : Instr} {s : State} {g : Flag} (h : Raises s i g) (st : Status) :
    Performs i s (s.reject st (some g)) := (Effect.raises h).performs st {}

theorem performs_reject_none (i : Instr) (s : State) (st : Status) : Performs i s (s.reject st none) :=
  (Effect.keeps i).performs st {}

/-- R85 step 2: the right is checked, then the operation's own rule runs. -/
theorem performs_ownerOnly {i : Instr} {s : State} {rule : State → State}
    (h : s.hostInRun = false → Performs i s (rule s)) : Performs i s (s.ownerOnly rule) := by
  cases hrun : s.hostInRun with
  | true => rw [ownerOnly_denied rule hrun]; exact performs_reject (.hostDenied hrun) _
  | false => rw [ownerOnly_allowed rule hrun]; exact h hrun

/-! The operations whose rule has more than one case. -/

theorem lowRegAt_eq_flags {n : Nat} (h : lowRegAt n = some .flags) : n = 1 := by
  unfold lowRegAt at h
  split at h <;> simp_all
  repeat' split at h
  all_goals simp at h

/-- `FLAGS` stands at 0x001 and nowhere else (spec/20_memory.md R65). -/
theorem regAt_eq_flags {p : Params} {addr : RegAddr} (h : regAt p addr = some .flags) : addr = 0x001 := by
  unfold regAt at h
  dsimp only at h
  split at h
  · exact BitVec.eq_of_toNat_eq (lowRegAt_eq_flags h)
  · repeat' split at h
    all_goals simp at h

theorem regAt_flags (p : Params) : regAt p 0x001 = some .flags := rfl

/-- `FLAGS` is the one register that the host clears by writing 1 (R23). -/
theorem regClass_eq_w1c {r : Reg} (h : regClass r = .w1c) : r = .flags := by
  cases r with
  | axis a q => cases q <;> cases h
  | flags => rfl
  | _ => cases h

theorem cfgRd_performs (addr : RegAddr) (s : State) : Performs (.cfgRd addr) s (cfgRd addr s) := by
  unfold cfgRd
  split
  · exact performs_reject (.readIllegal addr) _
  · exact performs_respond _ s _ _

/-- `CFG.WR` by the class of the register (spec/46_sys_cfg.md R237); only `FLAGS` may be written in run mode. -/
theorem cfgWr_performs {addr : RegAddr} {s : State} (hrun : addr = 0x001 ∨ s.hostInRun = false) :
    Performs (.cfgWr addr) s (cfgWr addr s) := by
  unfold cfgWr
  split
  case h_1 => exact performs_reject (.writeIllegal addr) _
  case h_2 r hreg =>
    split
    case h_1 hcls =>
      obtain rfl := regClass_eq_w1c hcls
      obtain rfl := regAt_eq_flags hreg
      exact Effect.clearFlags.performs _ _
    case h_2 => exact performs_reject (.writeDenied addr) _
    case h_3 hcls =>
      refine (Effect.config (hrun.resolve_left ?_) hreg hcls).performs _ _
      rintro rfl
      rw [regAt_flags] at hreg
      cases hreg
      cases hcls

theorem sysStart_performs (s : State) : Performs .sysStart s (sysStart s) := by
  unfold sysStart
  split
  case isTrue => exact performs_respond _ s _ _
  case isFalse hmode =>
    split
    case isTrue => exact performs_reject .startDenied _
    case isFalse hok => exact (Effect.start (by simpa using hmode) (by simpa using hok)).performs _ _

theorem kinSeg_performs (a : Axis) (s : State) : Performs (.kinSeg a) s (kinSeg a s) := by
  unfold kinSeg
  split
  · exact performs_reject (.segNoMotion a) _
  · exact performs_respond _ s _ _

theorem rampLoad_performs (a : Axis) (s : State) : Performs (.rampLoad a) s (rampLoad a s) := by
  unfold rampLoad
  split
  case isTrue => exact performs_reject_none _ s _
  case isFalse hst => exact (Effect.axis (.ramp (.load _ _ _ (not_not.1 hst)))).performs _ _

theorem rampInit_performs (a : Axis) (s : State) : Performs (.rampInit a) s (rampInit a s) := by
  unfold rampInit
  dsimp only
  split
  case isTrue => exact performs_reject_none _ s _
  case isFalse hst =>
    split
    case h_1 => exact performs_reject (.initNoMotion a) _
    case h_2 tt _ =>
      split
      case isTrue => exact performs_reject (.initAlloc a) _
      case isFalse hcap =>
        exact (Effect.axis (.ramp (.init tt (not_not.1 hst) (not_lt.1 hcap)))).performs _ _

theorem rampGen_performs (a : Axis) (s : State) : Performs (.rampGen a) s (rampGen a s) := by
  unfold rampGen
  split
  case h_1 hst => exact performs_reject (.genNotInit a hst) _
  case h_2 => exact performs_reject_none _ s _
  case h_3 hst => exact (Effect.axis (.ramp (.gen hst))).performs _ _

theorem rampNext_performs (a : Axis) (s : State) : Performs (.rampNext a) s (rampNext a s) := by
  unfold rampNext
  dsimp only
  split
  case isTrue hst => exact performs_reject (.nextNotInit a hst) _
  case isFalse hst =>
    split
    case isTrue => exact performs_reject_none _ s _
    case isFalse hrd => exact (Effect.axis (.ramp (.next (not_not.1 hst) hrd))).performs _ _

theorem pidRun_performs (a : Axis) (s : State) : Performs (.pidRun a) s (pidRun a s) := by
  unfold pidRun
  dsimp only
  split
  · exact (Effect.axis (.pid (.first _ _ _))).performs _ _
  · split
    · exact (Effect.raises (.hold a)).performs _ _
    · exact (Effect.axis (.pid (.running _ _ _ _))).performs _ _

theorem fifoPut_performs (s : State) : Performs .fifoPut s (fifoPut s) := by
  unfold fifoPut
  dsimp only
  split
  case isTrue hlen => exact (Effect.push _ hlen).performs _ _
  case isFalse =>
    split
    case h_1 => exact performs_reject .fifoFull _
    case h_2 => exact (Effect.pushDrop _).performs _ _

theorem fifoGet_performs (s : State) : Performs .fifoGet s (fifoGet s) := by
  unfold fifoGet
  split
  case h_1 => exact performs_reject_none _ s _
  case h_2 hq => exact (Effect.pop hq).performs _ _

theorem execCfgWr_performs (addr : RegAddr) (s : State) :
    ∃ t, execCfgWr addr s = .next t ∧ Performs (.cfgWr addr) s t := by
  refine ⟨_, rfl, ?_⟩
  split
  case isTrue haddr => exact cfgWr_performs (.inl haddr)
  case isFalse => exact performs_ownerOnly fun hrun => cfgWr_performs (.inr hrun)

theorem execSlotPut_performs (k : Slot) (s : State) :
    ∃ t, execSlotPut k s = .next t ∧ Performs (.slotPut k) s t := by
  have hput : Performs (.slotPut k) s (slotPut k s) := (Effect.put k).performs _ _
  refine ⟨_, rfl, ?_⟩
  split
  · exact hput
  · exact performs_ownerOnly fun _ => hput

/-- Every operation ends in a next state, which is one of its effects with a response (R254). -/
theorem exec_performs (i : Instr) (s : State) : ∃ t, exec i s = .next t ∧ Performs i s t := by
  cases i with
  | nop => exact ⟨_, rfl, performs_respond _ s _ _⟩
  | sysReset => exact ⟨_, rfl, Effect.reset.performs _ _⟩
  | sysStart => exact ⟨_, rfl, sysStart_performs s⟩
  | sysStop => exact ⟨_, rfl, Effect.stop.performs _ _⟩
  | sysFault => exact ⟨_, rfl, Effect.fault.performs _ _⟩
  | sysClrfault => exact ⟨_, rfl, Effect.clrfault.performs _ _⟩
  | cfgRd addr => exact ⟨_, rfl, cfgRd_performs addr s⟩
  | cfgWr addr => exact execCfgWr_performs addr s
  | encRead a => exact ⟨_, rfl, performs_ownerOnly fun _ => (Effect.axis (.enc .read)).performs _ _⟩
  | encZero a => exact ⟨_, rfl, performs_ownerOnly fun _ => (Effect.axis (.enc .zero)).performs _ _⟩
  | encPos a | encDpos a => exact ⟨_, rfl, performs_ownerOnly fun _ => performs_respond _ s _ _⟩
  | swRestart a => exact ⟨_, rfl, performs_ownerOnly fun _ => (Effect.axis (.sw .restart)).performs _ _⟩
  | swLap a => exact ⟨_, rfl, performs_ownerOnly fun _ => (Effect.axis (.sw .lap)).performs _ _⟩
  | kinUpdate => exact ⟨_, rfl, performs_ownerOnly fun _ => (Effect.kinUpdate _).performs _ _⟩
  | kinReset => exact ⟨_, rfl, performs_ownerOnly fun _ => Effect.kinReset.performs _ _⟩
  | kinFwd | kinInv => exact ⟨_, rfl, performs_respond _ s _ _⟩
  | kinSeg a => exact ⟨_, rfl, performs_ownerOnly fun _ => kinSeg_performs a s⟩
  | rampLoad a => exact ⟨_, rfl, performs_ownerOnly fun _ => rampLoad_performs a s⟩
  | rampInit a => exact ⟨_, rfl, performs_ownerOnly fun _ => rampInit_performs a s⟩
  | rampGen a => exact ⟨_, rfl, performs_ownerOnly fun _ => rampGen_performs a s⟩
  | rampNext a => exact ⟨_, rfl, performs_ownerOnly fun _ => rampNext_performs a s⟩
  | rampRelease a => exact ⟨_, rfl, performs_ownerOnly fun _ => (Effect.axis (.ramp .release)).performs _ _⟩
  | pidRun a => exact ⟨_, rfl, performs_ownerOnly fun _ => pidRun_performs a s⟩
  | pidReset a => exact ⟨_, rfl, performs_ownerOnly fun _ => (Effect.axis (.pid .reset)).performs _ _⟩
  | slotPut k => exact execSlotPut_performs k s
  | slotGet k => exact ⟨_, rfl, performs_respond _ s _ _⟩
  | fifoPut => exact ⟨_, rfl, fifoPut_performs s⟩
  | fifoGet => exact ⟨_, rfl, performs_ownerOnly fun _ => fifoGet_performs s⟩
  | motOut a => exact ⟨_, rfl, performs_ownerOnly fun _ => (Effect.axis (.duty _)).performs _ _⟩

/-- What an operation leaves is one of its effects, with a response. -/
theorem exec_effect {i : Instr} {s t : State} (h : exec i s = .next t) :
    ∃ x st r, Effect s i x ∧ t = x.respond st r := by
  obtain ⟨u, hu, hp⟩ := exec_performs i s
  obtain rfl : u = t := by rw [hu] at h; exact Outcome.next.inj h
  exact hp

end Sys2Proof.Machine

/-! ### Who may write what: the steps of the tasks, and what is left to the host (spec/10_state.md R49) -/

namespace Sys2Proof.Machine

open Sys2Proof Host

/-- The task an operation is reserved to in run mode (spec/60_exceptions.md R260; spec/44_slot_fifo.md R183). -/
def opOwner : Instr → Option TaskId
  | .encRead a | .encZero a | .encPos a | .encDpos a | .swRestart a | .swLap a => some (.enc a)
  | .kinUpdate | .kinReset | .kinSeg _ | .fifoGet => some .ctrl
  | .rampLoad _ | .rampInit _ | .rampGen _ | .rampNext _ | .rampRelease _ => some .ctrl
  | .pidRun _ | .pidReset _ => some .ctrl
  | .slotPut (.pos a) | .slotPut (.vel a) | .slotPut (.dt a) => some (.enc a)
  | .slotPut (.duty _) => some .ctrl
  | .motOut a => some (.mot a)
  | .nop | .sysReset | .sysStart | .sysStop | .sysFault | .sysClrfault | .cfgRd _ | .cfgWr _
  | .kinFwd | .kinInv | .slotPut .homeReq | .slotGet _ | .fifoPut => none

/-- What a task's body issues: the operations reserved to it, and reads of slots. -/
def TaskIssues (u : TaskId) (i : Instr) : Prop := opOwner i = some u ∨ ∃ k, i = .slotGet k

theorem bodyStep_issues {u : TaskId} {s : State} {k : Nat} {o : TaskOp} (h : bodyStep u s k = some o) :
    TaskIssues u o.instr := by
  unfold TaskIssues
  cases u with
  | enc a =>
    have hi := encStep_instr h
    simp only [List.mem_cons, List.not_mem_nil, or_false] at hi
    rcases hi with hi | hi | hi | hi | hi | hi | hi | hi | hi <;> simp [hi, opOwner]
  | ctrl =>
    obtain ⟨a, hi⟩ | hi := ctrlStep_instr h
    · simp only [List.mem_cons, List.not_mem_nil, or_false] at hi
      rcases hi with hi | hi | hi | hi | hi | hi | hi | hi | hi | hi <;> simp [hi, opOwner]
    · simp only [List.mem_cons, List.not_mem_nil, or_false] at hi
      rcases hi with hi | hi | hi | hi <;> simp [hi, opOwner]
  | mot a =>
    have hi := motStep_instr h
    simp only [List.mem_cons, List.not_mem_nil, or_false] at hi
    rcases hi with hi | hi <;> simp [hi, opOwner]

/-- `RAMP.GEN` and `RAMP.NEXT` are guarded by the state they need (spec/45_sched_tasks.md R209). -/
def RampGuarded (s : State) (i : Instr) : Prop :=
  ∀ a, (i = .rampGen a → (s.axis a).ramp.state = .allocated) ∧
    (i = .rampNext a → (s.axis a).ramp.state = .ready)

theorem gRamp_iff {s : State} {a : Axis} {st : RampState} :
    gRamp s a st = true ↔ (s.axis a).ramp.state = st := by simp [gRamp]

theorem rampGuarded_of_ne {s : State} {i : Instr} (hg : ∀ a, i ≠ .rampGen a) (hn : ∀ a, i ≠ .rampNext a) :
    RampGuarded s i := fun a => ⟨fun h => absurd h (hg a), fun h => absurd h (hn a)⟩

theorem bodyStep_rampGuarded {u : TaskId} {s : State} {k : Nat} {o : TaskOp}
    (h : bodyStep u s k = some o) : RampGuarded s o.instr := by
  cases u with
  | enc a =>
    have hi := encStep_instr h
    refine rampGuarded_of_ne ?_ ?_ <;> rintro b hb <;> simp [hb] at hi
  | ctrl =>
    simp only [bodyStep, ctrlStep] at h
    intro a
    constructor <;> intro hi <;> split at h <;>
      first
      | (cases h; done)
      | (obtain ⟨hg, rfl⟩ := guarded_some h
         cases hi
         simp only [Bool.and_eq_true, gRamp_iff] at hg
         exact hg.2)
      | (obtain ⟨-, rfl⟩ := guarded_some h
         cases hi)
  | mot a =>
    have hi := motStep_instr h
    refine rampGuarded_of_ne ?_ ?_ <;> rintro b hb <;> simp [hb] at hi

section
variable {s : State} {a : Axis} {i : Instr} {x : AxisRegs}

/-- Every operation that writes an axis's registers is reserved to a task. -/
theorem AxisWrite.exists_owner (h : AxisWrite s a i x) : ∃ u, opOwner i = some u := by
  cases h with
  | enc h | sw h | pid h | ramp h => cases h <;> exact ⟨_, rfl⟩
  | duty w => exact ⟨_, rfl⟩

/-- Of an axis's registers an operation writes those its task owns. -/
theorem AxisWrite.readAxisReg_eq {u : TaskId} (h : AxisWrite s a i x) (hu : opOwner i = some u)
    {q : AxisReg} (hq : ownsAxisReg u a q = false) : readAxisReg x q = readAxisReg (s.axis a) q := by
  cases h with
  | enc h | sw h | pid h | ramp h =>
    cases h <;> obtain rfl := Option.some.inj hu <;> cases q <;>
      simp [ownsAxisReg, axisRegIsCfg] at hq <;> rfl
  | duty w => cases q <;> rfl

/-- The waypoint buffer and the other ramp registers are written by `CTRL` alone. -/
theorem AxisWrite.ramp_eq {u : TaskId} (h : AxisWrite s a i x) (hi : opOwner i = some u) (hu : u ≠ .ctrl) :
    x.ramp = (s.axis a).ramp := by
  cases h with
  | ramp h => cases h <;> exact absurd (Option.some.inj hi).symm hu
  | enc h | sw h | pid h | duty w => rfl

/-- The output of an axis is driven by its motor task alone. -/
theorem AxisWrite.duty_eq {u : TaskId} (h : AxisWrite s a i x) (hi : opOwner i = some u) (hu : u ≠ .mot a) :
    x.dutyOut = (s.axis a).dutyOut ∧ x.dutyStb = (s.axis a).dutyStb := by
  cases h with
  | enc h | sw h | pid h | ramp h => exact ⟨rfl, rfl⟩
  | duty w => exact absurd (Option.some.inj hi).symm hu

/-- A configuration register of an axis is written by none of its operations (R38). -/
theorem AxisWrite.readAxisReg_cfg (h : AxisWrite s a i x) {q : AxisReg} (hq : axisRegIsCfg q = true) :
    readAxisReg x q = readAxisReg (s.axis a) q := by
  obtain ⟨u, hu⟩ := h.exists_owner
  exact h.readAxisReg_eq hu (by simp [ownsAxisReg, hq])

end

theorem putsSlot_of_owner {u : TaskId} {k : Slot} (h : opOwner (.slotPut k) = some u) :
    putsSlot u k = true := by
  cases k <;> simp_all [opOwner, putsSlot]

/-- The effect of an operation that a task issues, by what it writes. -/
theorem Effect.task_cases {s x : State} {u : TaskId} {i : Instr} (h : Effect s i x) (hi : TaskIssues u i) :
    x = s ∨
    (∃ g, Raises s i g ∧ x = s.raise g) ∨
    (∃ a y, AxisWrite s a i y ∧ opOwner i = some u ∧ x = s.setAxis a y) ∨
    (u = .ctrl ∧ ∃ k, x = s.setKin k) ∨
    (∃ k w, putsSlot u k = true ∧ x = s.putSlot k w) ∨
    (u = .ctrl ∧ ∃ e rest, s.fifo = e :: rest ∧ x = s.setFifo rest) := by
  cases h with
  | keeps => exact .inl rfl
  | raises h => exact .inr (.inl ⟨_, h, rfl⟩)
  | axis h =>
    refine .inr (.inr (.inl ⟨_, _, h, hi.resolve_right ?_, rfl⟩))
    rintro ⟨k, rfl⟩
    obtain ⟨v, hv⟩ := h.exists_owner
    cases hv
  | kinUpdate | kinReset =>
    simp only [TaskIssues, opOwner, reduceCtorEq, exists_false, or_false, Option.some.injEq] at hi
    exact .inr (.inr (.inr (.inl ⟨hi.symm, _, rfl⟩)))
  | put k =>
    simp only [TaskIssues, reduceCtorEq, exists_false, or_false] at hi
    exact .inr (.inr (.inr (.inr (.inl ⟨k, _, putsSlot_of_owner hi, rfl⟩))))
  | pop hq =>
    simp only [TaskIssues, opOwner, reduceCtorEq, exists_false, or_false, Option.some.injEq] at hi
    exact .inr (.inr (.inr (.inr (.inr ⟨hi.symm, _, _, hq, rfl⟩))))
  | _ => simp [TaskIssues, opOwner] at hi

/-- A raised flag is set, and no other flag moves. -/
theorem flag_raise (s : State) (g g' : Flag) : (s.raise g).flag g' = (s.flag g' || decide (g' = g)) := by
  have hbit : flagBit g' = flagBit g ∧ flagBit g' < 16 ↔ g' = g :=
    ⟨fun h => flagBit_inj h.1, fun h => ⟨congrArg flagBit h, flagBit_lt g'⟩⟩
  simp only [State.flag, flags_raise, hbit]

theorem flag_raise_of_flag {s : State} {g : Flag} (g' : Flag) (hg : s.flag g = true) :
    (s.raise g').flag g = true := by
  rw [flag_raise, hg, Bool.true_or]

/-- `t` is `s` but for what task `u` owns in run mode (R49, R206), and of the flags at most those of the
operations of `CTRL` are raised. -/
structure WritesOwn (u : TaskId) (s t : State) : Prop where
  reg    : ∀ r, ownsReg u r = false → readReg t r = readReg s r
  flag   : ∀ g, t.flag g ≠ s.flag g →
    t.flag g = true ∧ u = .ctrl ∧ ∃ a, g = .noMotion a ∨ g = .alloc a ∨ g = .dtHold a
  tmp    : ∀ v, v ≠ u → (t.task v).tmp = (s.task v).tmp
  fifo   : u ≠ .ctrl → t.fifo = s.fifo
  duty   : ∀ a, u ≠ .mot a → (t.axis a).dutyOut = (s.axis a).dutyOut ∧ (t.axis a).dutyStb = (s.axis a).dutyStb
  fault  : t.fault = s.fault
  params : t.params = s.params
  ports  : t.ports = s.ports

namespace WritesOwn

variable {u : TaskId} {s t : State}

theorem refl (u : TaskId) (s : State) : WritesOwn u s s := by
  constructor <;> simp

theorem trans {t' : State} (h : WritesOwn u s t) (k : WritesOwn u t t') : WritesOwn u s t' where
  reg r hr := (k.reg r hr).trans (h.reg r hr)
  flag g hg := by
    by_cases hk : t'.flag g = t.flag g
    · exact hk ▸ h.flag g (hk ▸ hg)
    · exact k.flag g hk
  tmp v hv := (k.tmp v hv).trans (h.tmp v hv)
  fifo hu := (k.fifo hu).trans (h.fifo hu)
  duty a ha := ⟨(k.duty a ha).1.trans (h.duty a ha).1, (k.duty a ha).2.trans (h.duty a ha).2⟩
  fault := k.fault.trans h.fault
  params := k.params.trans h.params
  ports := k.ports.trans h.ports

theorem issue (u : TaskId) (s : State) (who : Agent) (args : Words5) : WritesOwn u s (s.issue who args) := by
  constructor <;> simp [State.flag]

theorem respond (h : WritesOwn u s t) (st : Status) (r : Words5) : WritesOwn u s (t.respond st r) := by
  obtain ⟨hreg, hflag, htmp, hfifo, hduty, hfault, hparams, hports⟩ := h
  exact ⟨by simpa using hreg, by simpa [State.flag] using hflag, by simpa using htmp, by simpa using hfifo,
    by simpa using hduty, by simpa using hfault, by simpa using hparams, by simpa using hports⟩

theorem raise {a : Axis} {g : Flag} (hu : u = .ctrl) (hg : g = .noMotion a ∨ g = .alloc a ∨ g = .dtHold a) :
    WritesOwn u s (s.raise g) := by
  constructor
  case reg =>
    rintro r hr
    have hflags : r ≠ .flags := by rintro rfl; simp [ownsReg] at hr
    simp [hflags]
  case flag =>
    intro g' hne
    rw [flag_raise] at hne ⊢
    have hgg : g' = g := by simp_all
    exact ⟨by simp [hgg], hu, a, hgg ▸ hg⟩
  all_goals simp

theorem setAxis {a : Axis} {x : AxisRegs}
    (hreg : ∀ q, ownsAxisReg u a q = false → readAxisReg x q = readAxisReg (s.axis a) q)
    (hramp : u ≠ .ctrl → x.ramp = (s.axis a).ramp)
    (hduty : u ≠ .mot a → x.dutyOut = (s.axis a).dutyOut ∧ x.dutyStb = (s.axis a).dutyStb) :
    WritesOwn u s (s.setAxis a x) := by
  constructor
  case reg =>
    intro r hr
    cases r with
    | axis b q =>
      by_cases hb : b = a
      · subst hb; simpa [readReg] using hreg q hr
      · simp [hb]
    | rampBuf b n =>
      by_cases hb : b = a
      · subst hb; simp [hramp (by simpa [ownsReg] using hr), readReg]
      · simp [hb]
    | _ => simp
  case duty =>
    intro b hb
    by_cases hba : b = a
    · subst hba; simpa using hduty hb
    · simp [hba]
  all_goals simp [State.flag]

theorem setKin (hu : u = .ctrl) (k : KinRegs) : WritesOwn u s (s.setKin k) := by
  constructor
  case reg => intro r hr; cases r <;> simp_all [ownsReg]
  all_goals simp [State.flag]

theorem setSlot {k : Slot} (hk : putsSlot u k = true) (c : SlotCell) : WritesOwn u s (s.setSlot k c) := by
  constructor
  case reg =>
    intro r hr
    cases r with
    | slotVal l | slotValid l =>
      have hl : l ≠ k := by rintro rfl; simp [ownsReg, hk] at hr
      simp [hl]
    | _ => simp
  all_goals simp [State.flag]

theorem setFifo (hu : u = .ctrl) (q : List Command) : WritesOwn u s (s.setFifo q) := by
  constructor
  case reg =>
    intro r hr
    have hr' : r ≠ .fifoCount := by rintro rfl; simp [ownsReg, hu] at hr
    simp [hr']
  case fifo => exact fun h => absurd hu h
  all_goals simp [State.flag]

/-- A task's own registers: what a step may change of them is its temporaries, `READY` and `tstep`. -/
theorem setTask {x : TaskRegs} (hp : x.period = (s.task u).period) (hw : x.wake = (s.task u).wake) :
    WritesOwn u s (s.setTask u x) := by
  constructor
  case reg =>
    intro r hr
    cases r with
    | period v | wake v =>
      by_cases hv : v = u
      · subst hv; simp [hp, hw, readReg]
      · simp [hv]
    | tstat v =>
      have hv : v ≠ u := by rintro rfl; simp [ownsReg] at hr
      simp [hv]
    | _ => simp
  case tmp => intro v hv; simp [hv]
  all_goals simp [State.flag]

end WritesOwn

/-- Of the flags an operation of a task can raise, only those of `CTRL`'s operations are left (R206). -/
theorem Raises.of_task {s : State} {u : TaskId} {i : Instr} {g : Flag} (h : Raises s i g)
    (hi : TaskIssues u i) (hrun : s.hostInRun = false) (hramp : RampGuarded s i) :
    u = .ctrl ∧ ∃ a, g = .noMotion a ∨ g = .alloc a ∨ g = .dtHold a := by
  cases h with
  | hostDenied h => simp [hrun] at h
  | genNotInit a hst => simp [(hramp a).1 rfl] at hst
  | nextNotInit a hst => exact absurd ((hramp a).2 rfl) hst
  | segNoMotion a | initNoMotion a | initAlloc a | hold a =>
    simp only [TaskIssues, opOwner, reduceCtorEq, exists_false, or_false, Option.some.injEq] at hi
    exact ⟨hi.symm, a, by simp⟩
  | _ => simp [TaskIssues, opOwner] at hi

/-- An operation issued by a task writes what the task owns. -/
theorem Effect.writesOwn {s x : State} {u : TaskId} {i : Instr} (h : Effect s i x) (hi : TaskIssues u i)
    (hrun : s.hostInRun = false) (hramp : RampGuarded s i) : WritesOwn u s x := by
  obtain rfl | ⟨g, hg, rfl⟩ | ⟨a, y, hy, hu, rfl⟩ | ⟨hu, k, rfl⟩ | ⟨k, w, hk, rfl⟩ | ⟨hu, e, q, -, rfl⟩ :=
    h.task_cases hi
  · exact .refl u x
  · obtain ⟨hu, a, ha⟩ := hg.of_task hi hrun hramp
    exact .raise hu ha
  · exact .setAxis (fun _ => hy.readAxisReg_eq hu) (hy.ramp_eq hu) (hy.duty_eq hu)
  · exact .setKin hu k
  · exact .setSlot hk _
  · exact .setFifo hu q

theorem bodyPost_writesOwn (u : TaskId) (k : Nat) (s : State) : WritesOwn u s (bodyPost u k s) := by
  obtain h | ⟨f, h⟩ | ⟨rfl, a, w, h⟩ := bodyPost_cases u k s <;> rw [h]
  · exact .refl u s
  · exact .setTask rfl rfl
  · refine .setAxis (fun q hq => ?_) (fun hu => absurd rfl hu) (fun _ => ⟨rfl, rfl⟩)
    cases q <;> simp [ownsAxisReg, axisRegIsCfg] at hq <;> rfl

theorem finishStep_writesOwn (u : TaskId) (k : Nat) (s : State) : WritesOwn u s (finishStep u k s) := by
  unfold finishStep
  split <;> exact .setTask rfl rfl

/-- A step of the running task `u`: a guard that is false, or an effect of the operation it issues; then the
post-action and the end of the step (R203). -/
theorem taskStep_cases {s t : State} {u : TaskId} (he : nextEvent s = .taskStep)
    (hu : runningTask s = some u) (h : step s = .next t) :
    let s₁ := takeEvent s
    let k := (s₁.task u).tstep.toNat
    t = finishStep u k s₁ ∨
      ∃ o x st r, bodyStep u s₁ k = some o ∧ Effect (s₁.issue (.task u) o.args) o.instr x ∧
        t = finishStep u k (bodyPost u k (x.respond st r)) := by
  rw [← runningTask_takeEvent] at hu
  obtain ⟨he', -⟩ | ⟨he', -⟩ | ⟨_, he', -⟩ | ⟨_, _, _, he', -⟩ | ⟨_, _, _, he', -⟩ | ⟨-, hn, -⟩ | ⟨-, v, hv, hc⟩ :=
    step_cases h
  case inr.inr.inr.inr.inr.inl => rw [hu] at hn; cases hn
  case inr.inr.inr.inr.inr.inr =>
    obtain rfl : u = v := Option.some.inj (hu.symm.trans hv)
    obtain ⟨-, ht⟩ | ⟨o, y, ho, hy, ht⟩ := hc
    · exact .inl ht
    · obtain ⟨x, st, r, hx, rfl⟩ := exec_effect hy
      exact .inr ⟨o, x, st, r, ho, hx, ht⟩
  all_goals rw [he] at he'; cases he'

/-- A step of a task writes what the task owns, from the state in which its event has been taken. -/
theorem taskStep_writesOwn {s t : State} {u : TaskId} (he : nextEvent s = .taskStep)
    (hu : runningTask s = some u) (h : step s = .next t) : WritesOwn u (takeEvent s) t := by
  obtain rfl | ⟨o, x, st, r, ho, hx, rfl⟩ := taskStep_cases he hu h
  · exact finishStep_writesOwn u _ _
  · have hramp : RampGuarded ((takeEvent s).issue (.task u) o.args) o.instr := by
      simpa [RampGuarded] using bodyStep_rampGuarded ho
    have hx' : WritesOwn u ((takeEvent s).issue (.task u) o.args) x :=
      hx.writesOwn (bodyStep_issues ho) (issue_task_hostInRun _ u _) hramp
    exact (WritesOwn.issue u _ _ _).trans ((hx'.respond st r).trans
      ((bodyPost_writesOwn u _ _).trans (finishStep_writesOwn u _ _)))

theorem readReg_endStrobe (s : State) (a : Axis) (r : Reg) : readReg (s.endStrobe a) r = readReg s r := by
  rw [State.endStrobe, readReg_setAxis]
  cases r with
  | axis b q =>
    dsimp only
    split
    case isTrue hb => subst hb; cases q <;> rfl
    case isFalse => rfl
  | rampBuf b n =>
    dsimp only
    split
    case isTrue hb => subst hb; rfl
    case isFalse => rfl
  | _ => rfl

/-- Taking an event off changes no register: a strobe is none. -/
theorem readReg_takeEvent (s : State) (r : Reg) : readReg (takeEvent s) r = readReg s r := by
  rw [takeEvent, readReg_endStrobe, readReg_endStrobe]
  split <;> simp

/-- Settles O52: a step of a task writes what it owns, and taking the event off has ended the strobes. -/
theorem tasksWriteOnlyWhatTheyOwn : Obligations.TasksWriteOnlyWhatTheyOwn := by
  intro s t u he hu h
  obtain ⟨hreg, hflag, htmp, hfifo, hduty, -, hparams, hports⟩ := taskStep_writesOwn he hu h
  obtain ⟨eparams, -, -, eflags, -, -, efifo, eports, -, etask, eaxis, -⟩ := takeEvent_fields s
  refine ⟨fun r hr => ?_, fun g hg => ?_, fun v hv => ?_, fun hc => ?_, fun a ha => ?_, ?_, ?_⟩
  · rw [hreg r hr, readReg_takeEvent]
  · exact hflag g (by simpa [State.flag, eflags] using hg)
  · rw [htmp v hv, etask]
  · rw [hfifo hc, efifo]
  · obtain ⟨hout, hstb⟩ := hduty a ha
    rw [hout, hstb, eaxis]
    exact ⟨rfl, rfl⟩
  · rw [hparams, eparams]
  · rw [hports, eports]

/-! ### What only the host moves: the fault bit, the configuration registers, a flag that is set -/

/-- The fault bit, the configuration registers and the set flags of `s` stand in `t`. -/
structure HostKept (s t : State) : Prop where
  fault : t.fault = s.fault
  cfg   : ∀ r, regClass r = .cfg → readReg t r = readReg s r
  flag  : ∀ g, s.flag g = true → t.flag g = true

theorem HostKept.trans {s t u : State} (h : HostKept s t) (k : HostKept t u) : HostKept s u :=
  ⟨k.fault.trans h.fault, fun r hr => (k.cfg r hr).trans (h.cfg r hr), fun g hg => k.flag g (h.flag g hg)⟩

theorem axisRegIsCfg_of_regClass {a : Axis} {q : AxisReg} (h : regClass (.axis a q) = .cfg) :
    axisRegIsCfg q = true := by_contra fun hq => by simp [regClass, hq] at h

/-- A configuration register is no task's (R38). -/
theorem ownsReg_of_cfg {r : Reg} (u : TaskId) (h : regClass r = .cfg) : ownsReg u r = false := by
  cases r with
  | period v => rfl
  | axis a q => simp [ownsReg, ownsAxisReg, axisRegIsCfg_of_regClass h]
  | _ => cases h

/-- The configuration registers are the periods and thirteen registers of each axis (R38). -/
theorem readReg_cfg_eq {s t : State} {r : Reg} (hr : regClass r = .cfg)
    (hperiod : ∀ u, (t.task u).period = (s.task u).period)
    (haxis : ∀ a q, axisRegIsCfg q = true → readAxisReg (t.axis a) q = readAxisReg (s.axis a) q) :
    readReg t r = readReg s r := by
  cases r with
  | period u => exact hperiod u
  | axis a q => exact haxis a q (axisRegIsCfg_of_regClass hr)
  | _ => cases hr

theorem WritesOwn.hostKept {u : TaskId} {s t : State} (h : WritesOwn u s t) : HostKept s t where
  fault := h.fault
  cfg r hr := h.reg r (ownsReg_of_cfg u hr)
  flag g hg := by_contra fun hne => hne (h.flag g (by simpa [hg] using hne)).1

theorem takeEvent_hostKept (s : State) : HostKept s (takeEvent s) := by
  obtain ⟨-, -, efault, eflags, -⟩ := takeEvent_fields s
  exact ⟨efault, fun r _ => readReg_takeEvent s r, fun g hg => by rwa [State.flag, eflags]⟩

theorem tickTask_hostKept (s : State) (u : TaskId) : HostKept s (tickTask s u) := by
  obtain ⟨-, -, efault, eflags, -, -, -, -, -, -, -, eaxis, -⟩ := tickTask_rest s u
  refine ⟨efault, fun r hr => readReg_cfg_eq hr (fun v => ?_) (fun a q _ => by rw [eaxis]), fun g hg => ?_⟩
  · rw [tickTask_task]
    split
    case isTrue hv => obtain ⟨rfl, -⟩ := hv; split <;> rfl
    case isFalse => rfl
  · rw [State.flag, eflags]
    split
    · exact flag_raise_of_flag _ hg
    · exact hg

theorem foldl_hostKept {f : State → TaskId → State} (hf : ∀ s u, HostKept s (f s u)) (l : List TaskId)
    (s : State) : HostKept s (l.foldl f s) := by
  induction l generalizing s with
  | nil => exact ⟨rfl, fun _ _ => rfl, fun _ h => h⟩
  | cons u l ih => exact (hf s u).trans (ih _)

theorem setTime_hostKept (s : State) (w : Word) : HostKept s (s.setTime w) :=
  ⟨rfl, fun _ hr => readReg_cfg_eq hr (by simp) (by simp), fun _ h => h⟩

theorem tickEvent_hostKept (s : State) : HostKept s (tickEvent s) := by
  unfold tickEvent
  split
  · exact (setTime_hostKept s _).trans (foldl_hostKept tickTask_hostKept _ _)
  · exact ⟨rfl, fun _ _ => rfl, fun _ h => h⟩

theorem issue_hostKept (s : State) (who : Agent) (args : Words5) : HostKept s (s.issue who args) :=
  ⟨rfl, fun r _ => readReg_issue s who args r, fun _ h => h⟩

theorem rejectIllegal_hostKept (s : State) : HostKept s s.rejectIllegal :=
  ⟨rfl, fun r hr => readReg_cfg_eq hr (by simp [State.rejectIllegal, State.reject])
      (by simp [State.rejectIllegal, State.reject]),
    fun _ hg => flag_raise_of_flag .illegal hg⟩

/-- A step that is no reset and no transaction of a legal word keeps all of it. -/
theorem step_hostKept {s t : State} (h : step s = .next t) :
    (nextEvent s = .reset ∧ t = (takeEvent s).restart) ∨
    (∃ w args i x st r, nextEvent s = .host w args ∧ decode w = .ok i ∧
      Effect ((takeEvent s).issue .host args) i x ∧ t = x.respond st r) ∨
    HostKept s t := by
  obtain hreset | ⟨-, rfl⟩ | ⟨p, -, rfl⟩ | ⟨w, args, why, -, -, rfl⟩ | ⟨w, args, i, he, hw, hx⟩ | ⟨-, -, rfl⟩ |
    ⟨he, u, hu, -⟩ := step_cases h
  · exact .inl hreset
  · exact .inr (.inr ((takeEvent_hostKept s).trans (tickEvent_hostKept _)))
  · exact .inr (.inr ((takeEvent_hostKept s).trans
      ⟨rfl, fun r _ => readReg_setPorts _ p r, fun _ h => h⟩))
  · exact .inr (.inr ((takeEvent_hostKept s).trans
      ((issue_hostKept _ _ _).trans (rejectIllegal_hostKept _))))
  · obtain ⟨x, st, r, heff, rfl⟩ := exec_effect hx
    exact .inr (.inl ⟨w, args, i, x, st, r, he, hw, heff, rfl⟩)
  · exact .inr (.inr (takeEvent_hostKept s))
  · rw [runningTask_takeEvent] at hu
    exact .inr (.inr ((takeEvent_hostKept s).trans (taskStep_writesOwn he hu h).hostKept))

/-- The operations that move the fault bit (R255). -/
theorem Effect.fault_cases {s x : State} {i : Instr} (h : Effect s i x) :
    x.fault = s.fault ∨ (i = .sysFault ∧ x.fault = true) ∨
      ((i = .sysClrfault ∨ i = .sysReset) ∧ x.fault = false) := by
  cases h with
  | fault => exact .inr (.inl ⟨rfl, by simp [State.enterFault]⟩)
  | clrfault => exact .inr (.inr ⟨.inl rfl, by simp [State.leaveFault]⟩)
  | reset => exact .inr (.inr ⟨.inr rfl, rfl⟩)
  | start => exact .inl ((foldl_startTask_rest _).fault)
  | stop => exact .inl ((foldl_stopTask_rest _).fault)
  | config _ _ hcls =>
    left
    unfold writeCfgReg
    split <;> simp
  | _ => left; simp

/-- Settles O11: no event but a host operation that moves the fault bit, or reset, changes it. -/
theorem onlyTheHostMovesTheFaultBit : Obligations.OnlyTheHostMovesTheFaultBit := by
  intro s t h hne
  have efault := (takeEvent_hostKept s).fault
  obtain ⟨he, rfl⟩ | ⟨w, args, i, x, st, r, he, hw, hx, rfl⟩ | hkept := step_hostKept h
  · exact .inl ⟨he, rfl⟩
  · refine .inr ⟨w, args, i, he, hw, hx.fault_cases.resolve_left fun hk => hne ?_⟩
    rw [respond_fault, hk, issue_fault, efault]
  · exact absurd hkept.fault hne

theorem readAxisReg_writeAxisReg_of_ne {x : AxisRegs} {q which : AxisReg} (v : Word) (hne : q ≠ which) :
    readAxisReg (writeAxisReg x which v) q = readAxisReg x q := by
  cases which <;> cases q <;> first | rfl | exact absurd rfl hne

/-- A write of a configuration register changes no other one. -/
theorem readReg_writeCfgReg_of_ne {s : State} {r r' : Reg} (v : Word) (hne : r ≠ r') :
    readReg (writeCfgReg s r' v) r = readReg s r := by
  cases r' with
  | period u =>
    rw [writeCfgReg, readReg_setTask]
    cases r with
    | period v | wake v | tstat v => dsimp only; split <;> simp_all [readReg, tstatWord]
    | _ => rfl
  | axis a which =>
    rw [writeCfgReg, readReg_setAxis]
    cases r with
    | axis b q =>
      dsimp only
      split
      case isTrue hb => subst hb; exact readAxisReg_writeAxisReg_of_ne v fun hq => hne (hq ▸ rfl)
      case isFalse => rfl
    | rampBuf b n =>
      dsimp only
      split
      case isTrue hb => subst hb; cases which <;> rfl
      case isFalse => rfl
    | _ => rfl
  | _ => rfl

/-- The operations that change a configuration register (R38, R237). -/
theorem Effect.cfg_cases {s x : State} {i : Instr} {r : Reg} (h : Effect s i x) (hr : regClass r = .cfg) :
    readReg x r = readReg s r ∨ i = .sysReset ∨
      (s.hostInRun = false ∧ ∃ addr, i = .cfgWr addr ∧ regAt s.params addr = some r) := by
  cases h with
  | @config addr r' hrun hreg _ =>
    by_cases hrr : r = r'
    · exact .inr (.inr ⟨hrun, addr, rfl, hrr ▸ hreg⟩)
    · exact .inl (readReg_writeCfgReg_of_ne _ hrr)
  | reset => exact .inr (.inl rfl)
  | axis h =>
    refine .inl (readReg_cfg_eq hr (by simp) fun a q hq => ?_)
    rw [setAxis_axis]
    split
    case isTrue ha => subst ha; exact h.readAxisReg_cfg hq
    case isFalse => rfl
  | start =>
    refine .inl (readReg_cfg_eq hr (by simp [foldl_startTask_task]) fun a q _ => ?_)
    simp [(foldl_startTask_rest _).axis]
  | stop =>
    refine .inl (readReg_cfg_eq hr (by simp [foldl_stopTask_task]) fun a q _ => ?_)
    simp [(foldl_stopTask_rest _).axis]
  | fault => exact .inl (readReg_cfg_eq hr (by simp [State.enterFault]) (by simp [State.enterFault]))
  | clrfault =>
    refine .inl (readReg_cfg_eq hr (by simp [State.leaveFault]) fun a q hq => ?_)
    rw [leaveFault_axis]
    exact (AxisWrite.pid .reset).readAxisReg_cfg hq
  | _ => exact .inl (readReg_cfg_eq hr (by simp) (by simp))

/-- Settles O14: the host's transaction is in configuration mode where `CFG.WR` passes the check of rights. -/
theorem onlyCfgWrChangesConfiguration : Obligations.OnlyCfgWrChangesConfiguration := by
  intro s t r h hr hne
  obtain ⟨eparams, emode, -⟩ := takeEvent_fields s
  obtain ⟨he, -⟩ | ⟨w, args, i, x, st, q, he, hw, hx, rfl⟩ | hkept := step_hostKept h
  · exact .inl he
  · refine .inr ⟨w, args, i, he, hw, ?_⟩
    rw [readReg_respond, ← readReg_takeEvent s, ← readReg_issue _ .host args] at hne
    simpa [eparams, emode] using (hx.cfg_cases hr).resolve_left hne
  · exact absurd (hkept.cfg r hr) hne

theorem flag_clearFlagBits {s : State} {g : Flag} {w : Word} (hg : s.flag g = true)
    (hw : w.getLsbD (flagBit g) = false) : (s.setFlags (clearFlagBits s.flags w)).flag g = true := by
  have hlt := flagBit_lt g
  simp_all [State.flag, clearFlagBits, argU16]

/-- The operations that clear a flag (R22). -/
theorem Effect.flag_cases {s x : State} {i : Instr} {g : Flag} (h : Effect s i x) (hg : s.flag g = true) :
    x.flag g = true ∨ i = .sysReset ∨ (i = .cfgWr 0x001 ∧ s.op.args.w0.getLsbD (flagBit g) = true) := by
  cases h with
  | keeps => exact .inl hg
  | raises => exact .inl (flag_raise_of_flag _ hg)
  | pushDrop => exact .inl (flag_raise_of_flag .fifoFull hg)
  | reset => exact .inr (.inl rfl)
  | clearFlags =>
    cases hw : s.op.args.w0.getLsbD (flagBit g) with
    | true => exact .inr (.inr ⟨rfl, rfl⟩)
    | false => exact .inl (flag_clearFlagBits hg hw)
  | start => left; simpa [State.flag, (foldl_startTask_rest _).flags] using hg
  | stop => left; simpa [State.flag, (foldl_stopTask_rest _).flags] using hg
  | fault => left; simpa [State.flag, State.enterFault] using hg
  | clrfault => left; simpa [State.flag, State.leaveFault] using hg
  | config _ _ _ =>
    left
    unfold writeCfgReg
    split <;> simpa [State.flag] using hg
  | _ => left; simpa [State.flag] using hg

/-- Settles O17: of the operations only `SYS.RESET` and a write of `FLAGS` clear, and no other event does. -/
theorem flagsAreSticky : Obligations.FlagsAreSticky := by
  intro s t g h hg hclr
  obtain ⟨he, -⟩ | ⟨w, args, i, x, st, r, he, hw, hx, rfl⟩ | hkept := step_hostKept h
  · exact .inl he
  · have hg₁ : ((takeEvent s).issue .host args).flag g = true :=
      (issue_hostKept _ _ _).flag g ((takeEvent_hostKept s).flag g hg)
    refine .inr ⟨w, args, i, he, hw, (hx.flag_cases hg₁).resolve_left fun hx => ?_⟩
    simp [State.flag] at hx hclr
    simp [hx] at hclr
  · simp [hkept.flag g hg] at hclr

end Sys2Proof.Machine

/-! ### The invariant of the machine (spec/10_state.md R47): its parts, and what each update keeps of it -/

namespace Sys2Proof.Machine

open Sys2Proof Host

/-- The next release of a task lies between 1 and one period ahead (spec/45_sched_tasks.md R201). -/
def ReleaseAhead (now : Word) (r : TaskRegs) : Prop :=
  1 ≤ (r.wake - now).toNat ∧ (r.wake - now).toNat ≤ r.period.toNat

/-- `State.invariant`, part by part. -/
structure Invariant (s : State) : Prop where
  params : s.params.wellFormed = true
  axis   : ∀ a, axisOk s.params.rampCap (s.axis a) = true
  task   : ∀ u, taskOk u (s.task u) = true
  slot   : ∀ k, slotOk k (s.slot k) = true
  fifo   : s.fifo.length ≤ s.params.cmdFifoDepth
  run    : s.schedEn = true → ∀ u, ReleaseAhead s.schedTime (s.task u)
  config : s.schedEn = false → ∀ u, (s.task u).ready = false

theorem all_taskList {p : TaskId → Bool} : taskList.all p = true ↔ ∀ u, p u = true := by
  rw [forall_task]; simp [taskList]

theorem all_slotList {p : Slot → Bool} : slotList.all p = true ↔ ∀ k, p k = true := by
  refine ⟨fun h k => List.all_eq_true.1 h k ?_, fun h => List.all_eq_true.2 fun k _ => h k⟩
  rcases k with (_ | _) | (_ | _) | (_ | _) | _ | (_ | _) <;> decide

theorem modeOk_iff {s : State} : modeOk s = true ↔
    (s.schedEn = true → ∀ u, ReleaseAhead s.schedTime (s.task u)) ∧
      (s.schedEn = false → ∀ u, (s.task u).ready = false) := by
  cases hs : s.schedEn <;> simp [modeOk, hs, all_taskList, -List.all_eq_true, ReleaseAhead]

theorem invariant_iff {s : State} : s.invariant = true ↔ Invariant s := by
  simp only [State.invariant, Bool.and_eq_true, decide_eq_true_eq, all_taskList, all_slotList, modeOk_iff]
  constructor
  · rintro ⟨⟨⟨⟨⟨⟨hp, hA⟩, hB⟩, ht⟩, hk⟩, hf⟩, hrun, hcfg⟩
    exact ⟨hp, fun | .A => hA | .B => hB, ht, hk, hf, hrun, hcfg⟩
  · rintro ⟨hp, ha, ht, hk, hf, hrun, hcfg⟩
    exact ⟨⟨⟨⟨⟨⟨hp, ha .A⟩, ha .B⟩, ht⟩, hk⟩, hf⟩, hrun, hcfg⟩

theorem axisOk_iff {cap : Nat} {r : AxisRegs} : axisOk cap r = true ↔
    encOk r.enc = true ∧ swOk r.sw = true ∧ pidOk r.pid = true ∧ rampOk cap r.ramp = true := by
  simp only [axisOk, Bool.and_eq_true, and_assoc]

theorem taskOk_iff {u : TaskId} {r : TaskRegs} : taskOk u r = true ↔
    r.tstep.toNat < bodyLen u ∧ (r.ready = true ∨ r.tstep = 0) := by simp [taskOk]

theorem bodyLen_pos (u : TaskId) : 0 < bodyLen u := by cases u <;> simp [bodyLen]

theorem taskOk_of_tstep_zero {u : TaskId} {r : TaskRegs} (h : r.tstep = 0) : taskOk u r = true := by
  rw [taskOk_iff, h]
  exact ⟨bodyLen_pos u, .inr rfl⟩

/-! #### Reset -/

theorem restart_invariant {s : State} (h : s.params.wellFormed = true) : Invariant s.restart := by
  constructor
  case params => exact h
  case axis => intro a; rw [restart_axis]; rfl
  case task => intro u; rw [restart_task]; exact taskOk_of_tstep_zero rfl
  case slot => intro k; rw [restart_slot]; cases k <;> rfl
  all_goals simp

theorem oneSegment_of_config {s : State} (h : s.schedEn = false) : s.oneSegment = true := by
  simp [State.oneSegment, h]

/-- Settles O57: the state after reset is that of `restart` from itself. -/
theorem resetMeetsTheInvariants : Obligations.ResetMeetsTheInvariants := by
  have hrestart (s : State) (h : s.params.wellFormed = true) :
      s.restart.invariant = true ∧ s.restart.oneSegment = true :=
    ⟨invariant_iff.2 (restart_invariant h), oneSegment_of_config rfl⟩
  obtain ⟨hinv, hseg⟩ := hrestart State.reset (by decide)
  exact ⟨hinv, hseg, hrestart⟩

/-! #### Updates of the state -/

namespace Invariant

variable {s : State}

/-- An update of nothing the invariant speaks of. -/
theorem congr {t : State} (h : Invariant s) (hparams : t.params = s.params := by simp)
    (hmode : t.schedEn = s.schedEn := by simp) (htime : t.schedTime = s.schedTime := by simp)
    (haxis : ∀ a, t.axis a = s.axis a := by simp) (htask : ∀ u, t.task u = s.task u := by simp)
    (hslot : ∀ k, t.slot k = s.slot k := by simp) (hfifo : t.fifo = s.fifo := by simp) : Invariant t where
  params := hparams ▸ h.params
  axis a := by rw [hparams, haxis]; exact h.axis a
  task u := by rw [htask]; exact h.task u
  slot k := by rw [hslot]; exact h.slot k
  fifo := by rw [hfifo, hparams]; exact h.fifo
  run hm u := by rw [htime, htask]; exact h.run (hmode ▸ hm) u
  config hm u := by rw [htask]; exact h.config (hmode ▸ hm) u

theorem setAxis (h : Invariant s) {a : Axis} {x : AxisRegs} (hx : axisOk s.params.rampCap x = true) :
    Invariant (s.setAxis a x) where
  params := by simpa using h.params
  axis b := by
    rw [setAxis_axis, setAxis_params]
    split
    · exact hx
    · exact h.axis b
  task := by simpa using h.task
  slot := by simpa using h.slot
  fifo := by simpa using h.fifo
  run := by simpa using h.run
  config := by simpa using h.config

theorem setSlot (h : Invariant s) {k : Slot} {c : SlotCell} (hc : slotOk k c = true) :
    Invariant (s.setSlot k c) where
  params := by simpa using h.params
  axis := by simpa using h.axis
  task := by simpa using h.task
  slot l := by
    rw [setSlot_slot]
    split
    case isTrue hl => exact hl ▸ hc
    case isFalse => exact h.slot l
  fifo := by simpa using h.fifo
  run := by simpa using h.run
  config := by simpa using h.config

theorem setFifo (h : Invariant s) {q : List Command} (hq : q.length ≤ s.params.cmdFifoDepth) :
    Invariant (s.setFifo q) where
  params := h.params
  axis := by simpa using h.axis
  task := by simpa using h.task
  slot := by simpa using h.slot
  fifo := hq
  run := by simpa using h.run
  config := by simpa using h.config

theorem setTask (h : Invariant s) {u : TaskId} {x : TaskRegs} (hx : taskOk u x = true)
    (hrun : s.schedEn = true → ReleaseAhead s.schedTime x) (hcfg : s.schedEn = false → x.ready = false) :
    Invariant (s.setTask u x) where
  params := by simpa using h.params
  axis := by simpa using h.axis
  task v := by
    rw [setTask_task]
    split
    case isTrue hv => exact hv ▸ hx
    case isFalse => exact h.task v
  slot := by simpa using h.slot
  fifo := by simpa using h.fifo
  run hm v := by
    rw [setTask_schedEn] at hm
    rw [setTask_task, setTask_schedTime]
    split
    · exact hrun hm
    · exact h.run hm v
  config hm v := by
    rw [setTask_schedEn] at hm
    rw [setTask_task]
    split
    · exact hcfg hm
    · exact h.config hm v

/-- A put stores a bool in `HOME_REQ` and a valid word in any slot (spec/44_slot_fifo.md R181). -/
theorem putSlot (h : Invariant s) (k : Slot) (w : Word) : Invariant (s.putSlot k w) := by
  refine h.setSlot ?_
  cases k with
  | homeReq => cases hw : argBool w <;> simp [slotOk, slotStored, hw] <;> decide
  | _ => simp [slotOk, slotStored]

theorem enterFault (h : Invariant s) : Invariant s.enterFault := by
  have hf : Invariant (s.setFault true) := h.congr
  exact (hf.putSlot _ _).putSlot _ _

end Invariant

/-! #### The registers of an axis -/

theorem EncWrite.encOk {raw : Half} {a : Axis} {i : Instr} {e e' : EncRegs} (h : EncWrite raw a e i e')
    (he : encOk e = true) : encOk e' = true := by
  cases h with
  | read => simp [Machine.encOk, encSampled]
  | zero => exact he

theorem SwWrite.swOk {c : Half} {a : Axis} {i : Instr} {r r' : SwRegs} (h : SwWrite c a r i r') :
    swOk r' = true := by
  cases h <;> simp [Machine.swOk]

theorem pidOk_cleared (p : PidRegs) : pidOk (pidCleared p) = true := by simp [pidOk, pidCleared]

theorem PidWrite.pidOk {a : Axis} {i : Instr} {p p' : PidRegs} (h : PidWrite a p i p') : pidOk p' = true := by
  cases h with
  | first | running => rfl
  | reset => exact pidOk_cleared p

theorem rampOk_idle {cap : Nat} {r : RampRegs} (hst : r.state = .idle) :
    rampOk cap r = true ↔ bufWf cap r.buf = true ∧ r.count = 0 ∧ r.rd = 0 ∧ r.n = 0 := by
  simp [rampOk, hst, and_assoc]

theorem rampOk_allocated {cap : Nat} {r : RampRegs} (hst : r.state = .allocated) :
    rampOk cap r = true ↔
      bufWf cap r.buf = true ∧ 1 ≤ r.count.toNat ∧ r.count.toNat ≤ cap ∧ r.rd = 0 := by
  simp [rampOk, hst, and_assoc]

theorem rampOk_ready {cap : Nat} {r : RampRegs} (hst : r.state = .ready) :
    rampOk cap r = true ↔
      bufWf cap r.buf = true ∧ 1 ≤ r.count.toNat ∧ r.count.toNat ≤ cap ∧ r.rd.toNat ≤ r.count.toNat := by
  simp [rampOk, hst, and_assoc]

theorem bufWf_of_rampOk {cap : Nat} {r : RampRegs} (h : rampOk cap r = true) : bufWf cap r.buf = true := by
  simp only [rampOk, Bool.and_eq_true] at h
  exact h.1

theorem waypointCount_pos (tt slice : Word) : 1 ≤ waypointCount tt slice := by
  unfold waypointCount
  dsimp only
  split
  · omega
  · split <;> omega

theorem u32Word_toNat {n : Nat} (h : n < 2 ^ 32) : (u32Word n).toNat = n := by
  rw [u32Word, BitVec.toNat_ofNat, Nat.mod_eq_of_lt h]

/-- The ramp operations keep state, count and read index in agreement (R47 (b)). -/
theorem RampWrite.rampOk {cap : Nat} {a : Axis} {i : Instr} {r r' : RampRegs} (hcap : cap ≤ 256)
    (h : RampWrite cap a r i r') (hr : rampOk cap r = true) : rampOk cap r' = true := by
  have hbuf := bufWf_of_rampOk hr
  cases h with
  | load _ _ _ hst => exact (rampOk_idle hst).2 ((rampOk_idle hst).1 hr)
  | init tt hst hcount =>
    have hn : (u32Word (waypointCount tt r.slice)).toNat = waypointCount tt r.slice :=
      u32Word_toNat (by omega)
    exact (rampOk_allocated rfl).2
      ⟨hbuf, (waypointCount_pos tt r.slice).trans_eq hn.symm, hn.trans_le hcount, rfl⟩
  | gen hst =>
    obtain ⟨-, hone, hmax, -⟩ := (rampOk_allocated hst).1 hr
    exact (rampOk_ready rfl).2 ⟨bufWf_generated hbuf hone hmax, hone, hmax, Nat.zero_le _⟩
  | next hst hrd =>
    obtain ⟨-, hone, hmax, hle⟩ := (rampOk_ready hst).1 hr
    refine (rampOk_ready (r := { r with rd := r.rd + 1 }) hst).2 ⟨hbuf, hone, hmax, ?_⟩
    change (r.rd + 1).toNat ≤ r.count.toNat
    bv_omega
  | release => exact (rampOk_idle rfl).2 ⟨hbuf, rfl, rfl, rfl⟩

theorem rampCap_le {p : Params} (h : p.wellFormed = true) : p.rampCap ≤ 256 := by
  simp only [Params.wellFormed, Bool.and_eq_true, decide_eq_true_eq] at h
  exact h.1.2

theorem cmdFifoDepth_pos {p : Params} (h : p.wellFormed = true) : 1 ≤ p.cmdFifoDepth := by
  simp only [Params.wellFormed, Bool.and_eq_true, decide_eq_true_eq] at h
  exact h.1.1.1.1

theorem AxisWrite.axisOk {s : State} {a : Axis} {i : Instr} {x : AxisRegs}
    (hcap : s.params.rampCap ≤ 256) (h : AxisWrite s a i x)
    (hok : axisOk s.params.rampCap (s.axis a) = true) : axisOk s.params.rampCap x = true := by
  obtain ⟨henc, hsw, hpid, hramp⟩ := axisOk_iff.1 hok
  cases h with
  | enc h => exact axisOk_iff.2 ⟨h.encOk henc, hsw, hpid, hramp⟩
  | sw h => exact axisOk_iff.2 ⟨henc, h.swOk, hpid, hramp⟩
  | pid h => exact axisOk_iff.2 ⟨henc, hsw, h.pidOk, hramp⟩
  | ramp h => exact axisOk_iff.2 ⟨henc, hsw, hpid, h.rampOk hcap hramp⟩
  | duty w => exact axisOk_iff.2 ⟨henc, hsw, hpid, hramp⟩

/-- The configuration registers of an axis take part in no invariant. -/
theorem axisOk_writeAxisReg (cap : Nat) (x : AxisRegs) (which : AxisReg) (v : Word) :
    axisOk cap (writeAxisReg x which v) = axisOk cap x := by
  cases which <;> rfl

theorem Invariant.leaveFault {s : State} (h : Invariant s) : Invariant s.leaveFault := by
  have hclear {x : State} (a : Axis) (hx : Invariant x) : Invariant (x.mapPid a pidCleared) := by
    obtain ⟨henc, hsw, -, hramp⟩ := axisOk_iff.1 (hx.axis a)
    exact hx.setAxis (axisOk_iff.2 ⟨henc, hsw, pidOk_cleared _, hramp⟩)
  have hf : Invariant (s.setFault false) := h.congr
  exact hclear .B (hclear .A hf)

/-! #### Starting, stopping, writing the configuration -/

theorem period_pos_of_start {s : State} (h : startRefused s = false) (u : TaskId) :
    1 ≤ (s.task u).period.toNat := by
  simp only [startRefused, Bool.or_eq_false_iff] at h
  obtain ⟨⟨hperiod, -⟩, -⟩ := h
  have hne : (s.task u).period ≠ 0 := by
    have hall := all_taskList (p := fun u => !((s.task u).period == 0)).1 (by simpa using hperiod) u
    simpa using hall
  bv_omega

/-- With every task released at time 0 the next release is one period ahead (spec/46_sys_cfg.md R232). -/
theorem Invariant.releaseAll {s : State} (h : Invariant s) (htime : s.schedTime = 0)
    (hperiod : ∀ u, 1 ≤ (s.task u).period.toNat) :
    Invariant ((taskList.foldl startTask s).setSchedEn true) := by
  obtain ⟨eparams, -, -, -, etime, -, efifo, -, -, -, -, eaxis, eslot⟩ := foldl_startTask_rest s
  constructor
  case params => simpa [eparams] using h.params
  case axis => simpa [eparams, eaxis] using h.axis
  case task => intro u; simpa [foldl_startTask_task] using taskOk_of_tstep_zero rfl
  case slot => simpa [eslot] using h.slot
  case fifo => simpa [efifo, eparams] using h.fifo
  case run =>
    intro _ u
    simpa [foldl_startTask_task, etime, htime, ReleaseAhead] using hperiod u
  case config => simp

/-- In configuration mode the invariant says nothing of the time. -/
theorem Invariant.setTime {s : State} (h : Invariant s) (hmode : s.schedEn = false) (w : Word) :
    Invariant (s.setTime w) where
  params := h.params
  axis := by simpa using h.axis
  task := by simpa using h.task
  slot := by simpa using h.slot
  fifo := h.fifo
  run := by simp [hmode]
  config := by simpa using h.config

/-- `SYS.STOP` leaves no task ready (R233). -/
theorem Invariant.stop {s : State} (h : Invariant s) :
    Invariant (taskList.foldl stopTask (s.setSchedEn false)) := by
  obtain ⟨eparams, emode, -, -, -, -, efifo, -, -, -, -, eaxis, eslot⟩ :=
    foldl_stopTask_rest (s.setSchedEn false)
  constructor
  case params => simpa [eparams] using h.params
  case axis => simpa [eparams, eaxis] using h.axis
  case task => intro u; simpa [foldl_stopTask_task] using taskOk_of_tstep_zero rfl
  case slot => simpa [eslot] using h.slot
  case fifo => simpa [efifo, eparams] using h.fifo
  case run => simp [emode]
  case config => simp [foldl_stopTask_task]

/-- A write of a configuration register; a period is written in configuration mode only. -/
theorem Invariant.writeCfgReg {s : State} (h : Invariant s) (hmode : s.schedEn = false) (r : Reg) (v : Word) :
    Invariant (writeCfgReg s r v) := by
  cases r with
  | period u => exact h.setTask (h.task u) (by simp [hmode]) fun hm => h.config hm u
  | axis a which => exact h.setAxis ((axisOk_writeAxisReg _ _ _ _).trans (h.axis a))
  | _ => exact h

/-! #### Every operation, every event -/

/-- Every operation keeps the invariant; `CFG.WR` is the host's. -/
theorem Effect.invariant {s x : State} {i : Instr} (h : Effect s i x) (hs : Invariant s)
    (hhost : ∀ addr, i = .cfgWr addr → s.op.issuer = .host) : Invariant x := by
  cases h with
  | keeps => exact hs
  | raises | clearFlags | kinUpdate | kinReset => exact hs.congr
  | @axis _ a _ h => exact hs.setAxis (h.axisOk (rampCap_le hs.params) (hs.axis a))
  | reset => exact restart_invariant hs.params
  | start hmode hok =>
    exact (hs.setTime hmode 0).releaseAll rfl fun u => by simpa using period_pos_of_start hok u
  | stop => exact hs.stop
  | fault => exact hs.enterFault
  | clrfault => exact hs.leaveFault
  | @config addr _ hrun _ _ =>
    have hmode : s.schedEn = false := by simpa [State.hostInRun, hhost addr rfl] using hrun
    exact hs.writeCfgReg hmode _ _
  | put k => exact hs.putSlot k _
  | push e hlen => exact hs.setFifo (by simpa using hlen)
  | pushDrop e =>
    have hraise : Invariant (s.raise .fifoFull) := hs.congr
    refine hraise.setFifo ?_
    have hlen := hs.fifo
    have hpos := cmdFifoDepth_pos hs.params
    simp
    omega
  | pop hq =>
    have hlen := hs.fifo
    exact hs.setFifo (by rw [hq, List.length_cons] at hlen; omega)

theorem Invariant.issue {s : State} (h : Invariant s) (who : Agent) (args : Words5) :
    Invariant (s.issue who args) := h.congr

theorem Invariant.respond {s : State} (h : Invariant s) (st : Status) (r : Words5) :
    Invariant (s.respond st r) := h.congr

theorem takeEvent_invariant {s : State} (h : Invariant s) : Invariant (takeEvent s) := by
  obtain ⟨eparams, emode, -, -, etime, -, efifo, -, -, etask, eaxis, eslot⟩ := takeEvent_fields s
  constructor
  case axis => intro a; rw [eparams, eaxis]; exact h.axis a
  case params => simpa [eparams] using h.params
  case task => simpa [etask] using h.task
  case slot => simpa [eslot] using h.slot
  case fifo => simpa [efifo, eparams] using h.fifo
  case run => simpa [emode, etime, etask] using h.run
  case config => simpa [emode, etask] using h.config

/-! #### TICK (spec/45_sched_tasks.md R201) -/

/-- At a TICK each task is looked at once, whatever the tasks before it did. -/
theorem foldl_tickTask_task (s : State) (u : TaskId) :
    (taskList.foldl tickTask s).task u = (tickTask s u).task u := by
  have htime (x : State) (v : TaskId) : (tickTask x v).schedTime = x.schedTime := by
    obtain ⟨-, -, -, -, etime, -⟩ := tickTask_rest x v
    exact etime
  revert u
  rw [forall_task]
  simp [taskList, tickTask_task, htime]

/-- What the invariant speaks of beside the tasks and the time, after one task at a TICK and after all. -/
theorem foldl_tickTask_rest (l : List TaskId) (s : State) :
    let t := l.foldl tickTask s
    t.params = s.params ∧ t.schedEn = s.schedEn ∧ t.schedTime = s.schedTime ∧ t.fifo = s.fifo ∧
      (∀ b, t.axis b = s.axis b) ∧ ∀ k, t.slot k = s.slot k := by
  induction l generalizing s with
  | nil => simp
  | cons u l ih =>
    obtain ⟨hparams, hmode, htime, hfifo, haxis, hslot⟩ := ih (tickTask s u)
    obtain ⟨eparams, emode, -, -, etime, -, efifo, -, -, -, -, eaxis, eslot⟩ := tickTask_rest s u
    exact ⟨hparams.trans eparams, hmode.trans emode, htime.trans etime, hfifo.trans efifo,
      fun b => (haxis b).trans (eaxis b), fun k => (hslot k).trans (eslot k)⟩

/-- The release arithmetic: one TICK nearer, and one period further where the release is reached. -/
theorem releaseAhead_tick {now : Word} {r : TaskRegs} (h : ReleaseAhead now r) :
    (now + 1 ≠ r.wake → ReleaseAhead (now + 1) r) ∧
      (now + 1 = r.wake → ReleaseAhead (now + 1) { r with wake := r.wake + r.period }) := by
  obtain ⟨hone, hmax⟩ := h
  refine ⟨fun hw => ⟨by bv_omega, by bv_omega⟩, fun hw => ?_⟩
  have hdist : r.wake + r.period - (now + 1) = r.period := by rw [hw]; bv_omega
  have hperiod : 1 ≤ r.period.toNat := hone.trans hmax
  exact ⟨hperiod.trans_eq (congrArg _ hdist.symm), (congrArg _ hdist).le⟩

theorem tickTask_releaseAhead {s : State} {u : TaskId} {now : Word} (ht : s.schedTime = now + 1)
    (h : ReleaseAhead now (s.task u)) : ReleaseAhead (now + 1) ((tickTask s u).task u) := by
  obtain ⟨hlate, hdue⟩ := releaseAhead_tick h
  rw [tickTask_task, ht]
  split
  case isTrue hu => split <;> exact hdue hu.2
  case isFalse hu => exact hlate fun hw => hu ⟨rfl, hw⟩

theorem tickTask_taskOk {s : State} {u : TaskId} (h : taskOk u (s.task u) = true) :
    taskOk u ((tickTask s u).task u) = true := by
  rw [tickTask_task]
  split
  case isTrue =>
    split
    · exact h
    · exact taskOk_of_tstep_zero rfl
  case isFalse => exact h

/-- Every task looked at, where `SCHED_TIME` has just moved on from `now`, at which the invariant held. -/
theorem foldl_tickTask_invariant {s : State} {now : Word} (h : Invariant (s.setTime now))
    (hmode : s.schedEn = true) (htime : s.schedTime = now + 1) : Invariant (taskList.foldl tickTask s) := by
  obtain ⟨eparams, emode, etime, efifo, eaxis, eslot⟩ := foldl_tickTask_rest taskList s
  constructor
  case params => simpa [eparams] using h.params
  case axis => simpa [eparams, eaxis] using h.axis
  case task =>
    intro u
    rw [foldl_tickTask_task]
    exact tickTask_taskOk (by simpa using h.task u)
  case slot => simpa [eslot] using h.slot
  case fifo => simpa [efifo, eparams] using h.fifo
  case run =>
    intro _ u
    rw [foldl_tickTask_task, etime, htime]
    exact tickTask_releaseAhead htime (by simpa using h.run hmode u)
  case config => simp [emode, hmode]

theorem tickEvent_invariant {s : State} (h : Invariant s) : Invariant (tickEvent s) := by
  unfold tickEvent
  split
  case isTrue hmode => exact foldl_tickTask_invariant (now := s.schedTime) h hmode rfl
  case isFalse => exact h

/-! #### A step of a task (R203) -/

/-- No operation of a task touches the scheduler. -/
theorem Effect.scheduler_of_task {s x : State} {u : TaskId} {i : Instr} (h : Effect s i x)
    (hi : TaskIssues u i) : x.schedEn = s.schedEn ∧ ∀ v, x.task v = s.task v := by
  obtain rfl | ⟨g, -, rfl⟩ | ⟨a, y, -, -, rfl⟩ | ⟨-, k, rfl⟩ | ⟨k, w, -, rfl⟩ | ⟨-, e, q, -, rfl⟩ :=
    h.task_cases hi
  all_goals simp

theorem TaskIssues.ne_cfgWr {u : TaskId} {i : Instr} (h : TaskIssues u i) (addr : RegAddr) :
    i ≠ .cfgWr addr := by
  rintro rfl
  simp [TaskIssues, opOwner] at h

theorem bodyPost_invariant {s : State} (h : Invariant s) (u : TaskId) (k : Nat) :
    Invariant (bodyPost u k s) := by
  obtain hp | ⟨f, hp⟩ | ⟨-, a, w, hp⟩ := bodyPost_cases u k s <;> rw [hp]
  · exact h
  · exact h.setTask (h.task u) (fun hm => h.run hm u) (fun hm => h.config hm u)
  · exact h.setAxis (h.axis a)

theorem bodyPost_scheduler (u : TaskId) (k : Nat) (s : State) :
    (bodyPost u k s).schedEn = s.schedEn ∧ ((bodyPost u k s).task u).ready = (s.task u).ready := by
  obtain hp | ⟨f, hp⟩ | ⟨-, a, w, hp⟩ := bodyPost_cases u k s <;> rw [hp] <;> simp

/-- The step index stays in the body of a ready task (R21). -/
theorem finishStep_invariant {s : State} {u : TaskId} {k : Nat} (h : Invariant s) (hmode : s.schedEn = true)
    (hready : (s.task u).ready = true) (hk : k < bodyLen u) : Invariant (finishStep u k s) := by
  have hrun := h.run hmode u
  unfold finishStep
  split
  case isTrue => exact h.setTask (taskOk_of_tstep_zero rfl) (fun _ => hrun) (fun _ => rfl)
  case isFalse hlast =>
    refine h.setTask (taskOk_iff.2 ⟨?_, .inl hready⟩) (fun _ => hrun) (by simp [hmode])
    have hlen := bodyLen_lt u
    rw [BitVec.toNat_ofNat, Nat.mod_eq_of_lt (by omega)]
    omega

theorem taskStep_invariant {s t : State} {u : TaskId} (hs : Invariant s) (he : nextEvent s = .taskStep)
    (hu : runningTask s = some u) (h : step s = .next t) : Invariant t := by
  have h₁ : Invariant (takeEvent s) := takeEvent_invariant hs
  obtain ⟨hmode, hready⟩ := runningTask_some ((runningTask_takeEvent s).trans hu)
  obtain ⟨hk, -⟩ := taskOk_iff.1 (h₁.task u)
  obtain rfl | ⟨o, x, st, r, ho, hx, rfl⟩ := taskStep_cases he hu h
  · exact finishStep_invariant h₁ hmode hready hk
  · have hi := bodyStep_issues ho
    have hinv : Invariant x := hx.invariant (h₁.issue _ _) fun addr h => absurd h (hi.ne_cfgWr addr)
    obtain ⟨xmode, xtask⟩ := hx.scheduler_of_task hi
    obtain ⟨pmode, pready⟩ := bodyPost_scheduler u ((takeEvent s).task u).tstep.toNat (x.respond st r)
    refine finishStep_invariant (bodyPost_invariant (hinv.respond st r) _ _) ?_ ?_ hk
    · simpa [pmode, xmode] using hmode
    · simpa [pready, xtask] using hready

/-- Settles O58, by the events of R204: each keeps the invariant of the state in which it has been taken. -/
theorem invariantIsKept : Obligations.InvariantIsKept := by
  intro s t hs h
  rw [invariant_iff] at hs ⊢
  have h₁ : Invariant (takeEvent s) := takeEvent_invariant hs
  obtain ⟨-, rfl⟩ | ⟨-, rfl⟩ | ⟨p, -, rfl⟩ | ⟨w, args, why, -, -, rfl⟩ | ⟨w, args, i, -, -, hx⟩ | ⟨-, -, rfl⟩ |
    ⟨he, u, hu, -⟩ := step_cases h
  · exact restart_invariant h₁.params
  · exact tickEvent_invariant h₁
  · exact h₁.congr
  · have hraise : Invariant (((takeEvent s).issue .host args).raise .illegal) := h₁.congr
    exact hraise.respond .illegal {}
  · obtain ⟨x, st, r, heff, rfl⟩ := exec_effect hx
    exact (heff.invariant (h₁.issue _ _) fun _ _ => rfl).respond st r
  · exact h₁
  · exact taskStep_invariant hs he ((runningTask_takeEvent s).symm.trans hu) h

end Sys2Proof.Machine

/-! ### The register map (spec/20_memory.md R65)

Each table of `regAt` is the inverse of its numbering; `regAt` puts them together. -/

namespace Sys2Proof.Machine

open Sys2Proof Host

/-! #### The tables of axis registers, tasks and slots -/

theorem axisRegAt_axisRegOffset (q : AxisReg) : axisRegAt (axisRegOffset q) = some q := by cases q <;> rfl

theorem axisRegOffset_of_axisRegAt {n : Nat} {q : AxisReg} (h : axisRegAt n = some q) :
    axisRegOffset q = n := by
  unfold axisRegAt at h
  split at h <;> cases h <;> rfl

/-- An axis block ends before the next one begins. -/
theorem axisRegOffset_lt (q : AxisReg) : axisRegOffset q < 0x80 := by cases q <;> decide

theorem taskAt_taskNum (u : TaskId) : taskAt (taskNum u) = some u := by
  rcases u with (_ | _) | _ | (_ | _) <;> rfl

theorem taskNum_lt (u : TaskId) : taskNum u < 5 := (List.getElem?_eq_some_iff.1 (taskAt_taskNum u)).1

theorem taskNum_of_taskAt {n : Nat} {u : TaskId} (h : taskAt n = some u) : taskNum u = n := by
  have hn : n < taskList.length := (List.getElem?_eq_some_iff.1 h).1
  exact ((List.getElem?_inj hn (by decide)).1 (h.trans (taskAt_taskNum u).symm)).symm

theorem slotList_slotNum (k : Slot) : slotList[slotNum k]? = some k := by
  rcases k with (_ | _) | (_ | _) | (_ | _) | _ | (_ | _) <;> rfl

theorem slotNum_lt (k : Slot) : slotNum k < 9 := (List.getElem?_eq_some_iff.1 (slotList_slotNum k)).1

theorem slotNum_of_slotList {n : Nat} {k : Slot} (h : slotList[n]? = some k) : slotNum k = n := by
  have hn : n < slotList.length := (List.getElem?_eq_some_iff.1 h).1
  exact ((List.getElem?_inj hn (by decide)).1 (h.trans (slotList_slotNum k).symm)).symm

/-! #### From an address to the register found there -/

/-- A run of registers from a base on, looked up through the inverse of its numbering: the runs of the tasks'
registers and the axis blocks. -/
theorem regAddr_of_map {α : Type} {tab : Nat → Option α} {num : α → Nat} {f : α → Reg} {base n : Nat} {r : Reg}
    (htab : ∀ {m x}, tab m = some x → num x = m) (hf : ∀ x, regAddr (f x) = base + num x) (hn : base ≤ n)
    (h : (tab (n - base)).map f = some r) : regAddr r = n := by
  obtain ⟨x, hx, rfl⟩ := Option.map_eq_some_iff.1 h
  rw [hf, htab hx, Nat.add_sub_cancel' hn]

/-- The slots' registers stand in pairs: the value at the even address, its validity behind it. -/
theorem regAddr_of_slot {n : Nat} {r : Reg} (hn : 0x060 ≤ n)
    (h : (slotList[(n - 0x060) / 2]?).map (if n % 2 = 0 then Reg.slotVal else .slotValid) = some r) :
    regAddr r = n := by
  obtain ⟨k, hk, rfl⟩ := Option.map_eq_some_iff.1 h
  have hnum := slotNum_of_slotList hk
  split <;> simp only [regAddr] <;> omega

theorem regAddr_of_lowRegAt {n : Nat} {r : Reg} (h : lowRegAt n = some r) : regAddr r = n := by
  unfold lowRegAt at h
  split at h
  case h_12 =>
    split at h
    next hn => exact regAddr_of_map taskNum_of_taskAt (fun _ => rfl) hn.1 h
    split at h
    next hn => exact regAddr_of_map taskNum_of_taskAt (fun _ => rfl) hn.1 h
    split at h
    next hn => exact regAddr_of_map taskNum_of_taskAt (fun _ => rfl) hn.1 h
    split at h
    next hn => exact regAddr_of_slot hn.1 h
    next => cases h
  all_goals cases h; rfl

/-- The index of a waypoint word fits the 256 addresses its buffer stands in (spec/10_state.md R37). -/
theorem regAddr_of_waypoint {a : Axis} {base cap n : Nat} {r : Reg} (hbase : base = 0x400 + 0x100 * axisNum a)
    (hn : base ≤ n) (hlt : n < base + 0x100)
    (h : (if n - base < cap then some (Reg.rampBuf a (BitVec.ofNat 8 (n - base))) else none) = some r) :
    regAddr r = n := by
  split at h <;> cases h
  rw [regAddr, BitVec.toNat_ofNat, Nat.mod_eq_of_lt (by omega)]
  omega

theorem regAddr_of_regAt {p : Params} {addr : RegAddr} {r : Reg} (h : regAt p addr = some r) :
    regAddr r = addr.toNat := by
  unfold regAt at h
  dsimp only at h
  split at h
  next => exact regAddr_of_lowRegAt h
  split at h
  next => exact regAddr_of_map axisRegOffset_of_axisRegAt (fun _ => rfl) (by omega) h
  split at h
  next => exact regAddr_of_map axisRegOffset_of_axisRegAt (fun _ => rfl) (by omega) h
  split at h
  next => cases h
  split at h
  next => exact regAddr_of_waypoint (a := .A) (base := 0x400) rfl (by omega) (by omega) h
  split at h
  next => exact regAddr_of_waypoint (a := .B) (base := 0x500) rfl (by omega) (by omega) h
  next => cases h

/-! #### From a register to its address -/

theorem lowRegAt_regAddr {r : Reg} (h : regAddr r < 0x100) : lowRegAt (regAddr r) = some r := by
  cases r with
  | axis a q => simp only [regAddr, axisBase] at h; omega
  | rampBuf a i => simp only [regAddr] at h; omega
  | period u | wake u | tstat u => rcases u with (_ | _) | _ | (_ | _) <;> rfl
  | slotVal k | slotValid k => rcases k with (_ | _) | (_ | _) | (_ | _) | _ | (_ | _) <;> rfl
  | _ => rfl

theorem regAt_of_low {p : Params} {addr : RegAddr} {r : Reg} (h : regAddr r = addr.toNat)
    (hlow : regAddr r < 0x100) : regAt p addr = some r := by
  simp only [regAt, ← h, if_pos hlow, lowRegAt_regAddr hlow]

theorem regAt_of_axis {p : Params} {addr : RegAddr} {a : Axis} {q : AxisReg}
    (h : regAddr (.axis a q) = addr.toNat) : regAt p addr = some (.axis a q) := by
  have hq := axisRegOffset_lt q
  cases a with
  | A =>
    have hn : addr.toNat = 0x100 + axisRegOffset q := h.symm
    simp only [regAt, hn]
    rw [if_neg (by omega), if_pos (by omega), Nat.add_sub_cancel_left, axisRegAt_axisRegOffset, Option.map_some]
  | B =>
    have hn : addr.toNat = 0x180 + axisRegOffset q := h.symm
    simp only [regAt, hn]
    rw [if_neg (by omega), if_neg (by omega), if_pos (by omega), Nat.add_sub_cancel_left, axisRegAt_axisRegOffset,
      Option.map_some]

/-- Where a waypoint word would stand, it is mapped exactly below `RAMP_CAP` (spec/10_state.md R37). -/
theorem regAt_of_rampBuf {p : Params} {addr : RegAddr} {a : Axis} {i : BitVec 8}
    (h : regAddr (.rampBuf a i) = addr.toNat) :
    regAt p addr = if i.toNat < p.rampCap then some (.rampBuf a i) else none := by
  have hi := i.isLt
  cases a with
  | A =>
    have hn : addr.toNat = 0x400 + i.toNat := h.symm
    simp only [regAt, hn]
    rw [if_neg (by omega), if_neg (by omega), if_neg (by omega), if_neg (by omega), if_pos (by omega),
      Nat.add_sub_cancel_left, BitVec.ofNat_toNat, BitVec.setWidth_eq]
  | B =>
    have hn : addr.toNat = 0x500 + i.toNat := h.symm
    simp only [regAt, hn]
    rw [if_neg (by omega), if_neg (by omega), if_neg (by omega), if_neg (by omega), if_neg (by omega),
      if_pos (by omega), Nat.add_sub_cancel_left, BitVec.ofNat_toNat, BitVec.setWidth_eq]

/-- Settles O26: `regAt` answers a register at its own address only, and at that address it answers it, a
waypoint word below `RAMP_CAP` only. -/
theorem registerMapIsTheAddressTable : Obligations.RegisterMapIsTheAddressTable := by
  intro p addr r
  constructor
  · intro h
    have haddr := regAddr_of_regAt h
    refine ⟨haddr, ?_⟩
    rintro a i rfl
    by_contra hcap
    rw [regAt_of_rampBuf haddr, if_neg hcap] at h
    cases h
  · rintro ⟨haddr, hcap⟩
    cases r with
    | axis a q => exact regAt_of_axis haddr
    | rampBuf a i => rw [regAt_of_rampBuf haddr, if_pos (hcap a i rfl)]
    | period u | wake u | tstat u =>
      have hu := taskNum_lt u
      exact regAt_of_low haddr (by simp only [regAddr]; omega)
    | slotVal k | slotValid k =>
      have hk := slotNum_lt k
      exact regAt_of_low haddr (by simp only [regAddr]; omega)
    | _ => exact regAt_of_low haddr (by decide)

end Sys2Proof.Machine

/-! ### The order of the FIFO (spec/20_memory.md R69) -/

namespace Sys2Proof.Machine

open Sys2Proof Host

theorem step_hostEvent {s : State} {i : Instr} {args : Words5} {rest : List Event}
    (h : s.pending = hostEvent i args :: rest) :
    step s = exec i ((afterTaking s rest).issue .host args) :=
  (step_host h).trans (hostTransaction_of_decode (decode_encode i) args _)

@[simp] theorem afterTaking_params (s : State) (l : List Event) : (afterTaking s l).params = s.params := rfl
@[simp] theorem afterTaking_schedEn (s : State) (l : List Event) : (afterTaking s l).schedEn = s.schedEn := rfl
@[simp] theorem afterTaking_fifo (s : State) (l : List Event) : (afterTaking s l).fifo = s.fifo := rfl
@[simp] theorem afterTaking_pending (s : State) (l : List Event) : (afterTaking s l).pending = l := rfl

/-- `FIFO.PUT` below the depth (spec/44_slot_fifo.md R185). -/
theorem fifoPut_of_lt {s : State} (h : s.fifo.length < s.params.cmdFifoDepth) :
    fifoPut s = (s.setFifo (s.fifo ++ [commandOf s.op.args])).respond .ok {} := by
  rw [fifoPut, if_pos h]

/-- `FIFO.GET` from a queue with an entry (spec/44_slot_fifo.md R186). -/
theorem fifoGet_of_cons {s : State} {c : Command} {q : List Command} (h : s.fifo = c :: q) :
    fifoGet s = (s.setFifo q).respond .ok (wordsOf c) := by
  simp only [fifoGet, h, wordsOf]

theorem step_fifoPut {s : State} {c : Command} {rest : List Event}
    (hp : s.pending = hostEvent .fifoPut (wordsOf c) :: rest) (hroom : s.fifo.length < s.params.cmdFifoDepth) :
    ∃ t, step s = .next t ∧ t.pending = rest ∧ t.fifo = s.fifo ++ [c] ∧ t.params = s.params ∧
      t.schedEn = s.schedEn := by
  have hexec (x : State) : exec .fifoPut x = .next (fifoPut x) := rfl
  refine ⟨_, (step_hostEvent hp).trans (hexec _), ?_⟩
  rw [fifoPut_of_lt (by simpa using hroom)]
  simp [commandOf, wordsOf]

theorem step_fifoGet {s : State} {c : Command} {q : List Command} {rest : List Event}
    (hp : s.pending = hostEvent .fifoGet {} :: rest) (hmode : s.schedEn = false) (hq : s.fifo = c :: q) :
    ∃ t, step s = .next t ∧ t.pending = rest ∧ Answers t .ok (wordsOf c) ∧ t.fifo = q ∧ t.schedEn = false := by
  have hexec (x : State) : exec .fifoGet x = .next (x.ownerOnly fifoGet) := rfl
  refine ⟨_, (step_hostEvent hp).trans (hexec _), ?_⟩
  rw [ownerOnly_allowed _ (by simpa using hmode), fifoGet_of_cons (by simpa using hq)]
  exact ⟨by simp, ⟨rfl, rfl⟩, by simp, by simpa using hmode⟩

/-- A run of puts that never overflows appends the entries in the order put. -/
theorem runSteps_fifoPuts {s : State} {cs : List Command} {rest : List Event}
    (hroom : s.fifo.length + cs.length ≤ s.params.cmdFifoDepth)
    (hp : s.pending = cs.map (fun c => hostEvent .fifoPut (wordsOf c)) ++ rest) :
    ∃ t, runSteps cs.length s = .next t ∧ t.pending = rest ∧ t.fifo = s.fifo ++ cs ∧ t.schedEn = s.schedEn := by
  induction cs generalizing s with
  | nil => exact ⟨s, rfl, hp, (List.append_nil _).symm, rfl⟩
  | cons c cs ih =>
    rw [List.length_cons] at hroom
    obtain ⟨x, hstep, hxp, hxf, hxparams, hxmode⟩ := step_fifoPut hp (by omega)
    obtain ⟨t, hrun, htp, htf, htmode⟩ := ih (by simp [hxf, hxparams]; omega) hxp
    refine ⟨t, (runSteps_succ _ hstep).trans hrun, htp, ?_, htmode.trans hxmode⟩
    rw [htf, hxf, List.append_assoc, List.singleton_append]

/-- Of a run of gets in configuration mode the last answers the entry that stood as many places from the
front. -/
theorem runSteps_fifoGets {s : State} {n : Nat} {c : Command} {rest : List Event} (hmode : s.schedEn = false)
    (hc : s.fifo[n]? = some c) (hp : s.pending = List.replicate (n + 1) (hostEvent .fifoGet {}) ++ rest) :
    ∃ t, runSteps (n + 1) s = .next t ∧ t.pending = rest ∧ Answers t .ok (wordsOf c) ∧
      t.fifo = s.fifo.drop (n + 1) := by
  induction hq : s.fifo generalizing s n with
  | nil => rw [hq] at hc; cases hc
  | cons d q ih =>
    rw [hq] at hc
    obtain ⟨x, hstep, hxp, hans, hxf, hxmode⟩ := step_fifoGet hp hmode hq
    cases n with
    | zero =>
      obtain rfl : d = c := by simpa using hc
      exact ⟨x, runSteps_succ 0 hstep, hxp, hans, hxf⟩
    | succ n =>
      obtain ⟨t, hrun, ht⟩ := ih hxmode (by rw [hxf]; exact hc) hxp hxf
      exact ⟨t, (runSteps_succ _ hstep).trans hrun, ht⟩

/-- Settles O48: the puts leave the queue with the entries behind it, and the gets take from its front. -/
theorem fifoPreservesInsertionOrder : Obligations.FifoPreservesInsertionOrder := by
  intro s cs n c rest hmode hroom hc hp
  rw [List.append_assoc] at hp
  obtain ⟨x, hputs, hxp, hxf, hxmode⟩ := runSteps_fifoPuts hroom hp
  obtain ⟨t, hgets, htp, hans, htf⟩ := runSteps_fifoGets (hxmode.trans hmode) (hxf ▸ hc) hxp
  exact ⟨t, (runSteps_add _ _ hputs).trans hgets, htp, hans, by rw [htf, hxf]⟩

end Sys2Proof.Machine

/-! ### The encoding: every word and its operation (spec/30_encoding.md R80 to R85)

One inversion of the decoder's table, `decodeRaw_row`, carries the section. From it, a word decodes to `i` exactly
where it is the word of `i`, and it decodes at all exactly where its fields are well-formed. The opcode table says
the same by masks, because its rows are the rows of `opFormats`. -/

namespace Sys2Proof

/-! #### What the decoder can answer -/

/-- The decoder's answer to fields whose reserved bits are 0: the decoder of the format the table gives for `op`,
on an operation whose own row has that `op` (R82), or the refusal of an `op` without a row (R83). -/
inductive DecoderRow (r : RawOp) : Except Illegal Instr → Prop
  | N (i : Instr) (hop : formatOf r.op = some .N) (hrow : rawOf i = rawN r.op) : DecoderRow r (decodeN r i)
  | A (f : Axis → Instr) (hop : formatOf r.op = some .A) (hrow : ∀ a, rawOf (f a) = rawA r.op a) :
      DecoderRow r (decodeA r f)
  | S (f : Slot → Instr) (hop : formatOf r.op = some .S) (hrow : ∀ k, rawOf (f k) = rawS r.op k) :
      DecoderRow r (decodeS r f)
  | R (f : RegAddr → Instr) (hop : formatOf r.op = some .R) (hrow : ∀ addr, rawOf (f addr) = rawR r.op addr) :
      DecoderRow r (decodeR r f)
  | undefined (hop : formatOf r.op = none) : DecoderRow r (.error .undefinedOp)

/-- The split over the rows of the decoder's table (R82). -/
theorem decodeRaw_row {r : RawOp} (hz : r.zero = 0) : DecoderRow r (decodeRaw r) := by
  have hop {n : Nat} (h : r.op.toNat = n) : r.op = BitVec.ofNat 8 n := by
    rw [← h, BitVec.ofNat_toNat, BitVec.setWidth_eq]
  rw [decodeRaw, if_neg (not_not.2 hz)]
  split
  case h_1 h | h_2 h | h_3 h | h_4 h | h_5 h | h_6 h | h_15 h | h_16 h | h_17 h | h_18 h | h_29 h | h_30 h =>
    exact .N _ (by rw [hop h]; rfl) (by rw [hop h]; rfl)
  case h_7 h | h_8 h => exact .R _ (by rw [hop h]; rfl) (by rw [hop h]; intro; rfl)
  case h_27 h | h_28 h => exact .S _ (by rw [hop h]; rfl) (by rw [hop h]; intro; rfl)
  case h_9 h | h_10 h | h_11 h | h_12 h | h_13 h | h_14 h | h_19 h | h_20 h | h_21 h | h_22 h | h_23 h | h_24 h
      | h_25 h | h_26 h | h_31 h =>
    exact .A _ (by rw [hop h]; rfl) (by rw [hop h]; intro; rfl)
  case h_32 =>
    refine .undefined ?_
    rw [formatOf, List.lookup_eq_none_iff]
    simp_all [opFormats]

theorem decodeRaw_reserved {r : RawOp} (hz : r.zero ≠ 0) : decodeRaw r = .error .reservedBits := if_pos hz

theorem zero_of_decodeRaw_ok {r : RawOp} {i : Instr} (h : decodeRaw r = .ok i) : r.zero = 0 := by
  by_contra hz
  rw [decodeRaw_reserved hz] at h
  cases h

/-- Fields that decode are the fields of the operation's row: each format's decoder leaves no field free
(R81, R84). -/
theorem rawOf_of_decodeRaw_ok {r : RawOp} {i : Instr} (h : decodeRaw r = .ok i) : rawOf i = r := by
  have hz := zero_of_decodeRaw_ok h
  have hr := decodeRaw_row hz
  obtain ⟨op, sel, reg, zero⟩ := r
  rw [h] at hr
  generalize ha : Except.ok i = answer at hr
  cases hr with
  | N j hop hrow =>
    obtain ⟨rfl, rfl, rfl⟩ := decodeN_ok.1 ha.symm
    rw [hrow, rawN, ← hz]
  | A f hop hrow =>
    obtain ⟨rfl, a, rfl, rfl⟩ := decodeA_ok.1 ha.symm
    rw [hrow, rawA, ← hz]
  | S f hop hrow =>
    obtain ⟨rfl, k, rfl, rfl⟩ := decodeS_ok.1 ha.symm
    rw [hrow, rawS, ← hz]
  | R f hop hrow =>
    obtain ⟨rfl, rfl⟩ := decodeR_ok.1 ha.symm
    rw [hrow, rawR, ← hz]
  | undefined hop => cases ha

theorem encode_of_decode_ok {w : Word} {i : Instr} (h : decode w = .ok i) : encode i = w := by
  rw [encode, rawOf_of_decodeRaw_ok h, packWord_splitWord]

/-! #### The words that decode are the well-formed ones -/

theorem axisOfSel_isSome (sel : BitVec 4) : (axisOfSel sel).isSome = decide (sel.toNat ≤ 1) := by
  revert sel; decide

theorem slotOfSel_isSome (sel : BitVec 4) : (slotOfSel sel).isSome = decide (sel.toNat ≤ 8) := by
  revert sel; decide

theorem exists_axisSel_iff {sel : BitVec 4} : (∃ a, sel = axisSel a) ↔ sel.toNat ≤ 1 := by
  rw [← decide_eq_true_iff (p := sel.toNat ≤ 1), ← axisOfSel_isSome, Option.isSome_iff_exists]
  exact exists_congr fun a => ⟨fun h => h ▸ axisOfSel_axisSel a, axisSel_of_axisOfSel⟩

theorem exists_slotSel_iff {sel : BitVec 4} : (∃ k, sel = slotSel k) ↔ sel.toNat ≤ 8 := by
  rw [← decide_eq_true_iff (p := sel.toNat ≤ 8), ← slotOfSel_isSome, Option.isSome_iff_exists]
  exact exists_congr fun k => ⟨fun h => h ▸ slotOfSel_slotSel k, slotSel_of_slotOfSel⟩

theorem wellFormed_iff {r : RawOp} :
    r.wellFormed = true ↔ r.zero = 0 ∧ ∃ f, formatOf r.op = some f ∧ f.admits r.sel r.reg = true := by
  rw [RawOp.wellFormed]
  cases formatOf r.op <;> simp

/-- R84 is what the decoder refuses: each format's decoder accepts what the format admits. -/
theorem exists_decodeRaw_ok_iff {r : RawOp} : (∃ i, decodeRaw r = .ok i) ↔ r.wellFormed = true := by
  rw [wellFormed_iff]
  by_cases hz : r.zero = 0
  · have hr := decodeRaw_row hz
    generalize decodeRaw r = answer at hr
    cases hr with
    | N i hop hrow => simp [hz, hop, decodeN_ok, Format.admits]
    | A f hop hrow => simp [hz, hop, decodeA_ok, Format.admits, ← exists_axisSel_iff, and_comm]
    | S f hop hrow => simp [hz, hop, decodeS_ok, Format.admits, ← exists_slotSel_iff, and_comm]
    | R f hop hrow => simp [hz, hop, decodeR_ok, Format.admits]
    | undefined hop => simp [hop]
  · exact iff_of_false (by simp [decodeRaw_reserved hz]) fun h => hz h.1

end Sys2Proof

namespace Sys2Proof.Machine

open Sys2Proof Host

/-! #### The opcode table by masks (R83) -/

/-- The fields a format fixes: all of `op` and of the reserved bits; of `sel` and `reg` what no operand uses. -/
def formatMask : Format → RawOp
  | .N => ⟨BitVec.allOnes _, BitVec.allOnes _, BitVec.allOnes _, BitVec.allOnes _⟩
  | .A => ⟨BitVec.allOnes _, 0xE, BitVec.allOnes _, BitVec.allOnes _⟩
  | .S => ⟨BitVec.allOnes _, 0#4, BitVec.allOnes _, BitVec.allOnes _⟩
  | .R => ⟨BitVec.allOnes _, BitVec.allOnes _, 0#12, BitVec.allOnes _⟩

/-- The greatest selector of a format (R81). -/
def formatMaxSel : Format → Nat
  | .N | .R => 0
  | .A => 1
  | .S => 8

/-- The row of the opcode table for an `op` value and its format. -/
def opcodeRow (p : Nat × Format) : OpcodeRow :=
  ⟨packWord (rawN (BitVec.ofNat 8 p.1)), packWord (formatMask p.2), formatMaxSel p.2⟩

/-- The two tables are one: the match and the mask of each row are those of its `op` and its format. -/
theorem opcodeRows_eq_map : opcodeRows = opFormats.map opcodeRow := by decide

theorem packWord_inj {r q : RawOp} : packWord r = packWord q ↔ r = q :=
  ⟨fun h => by rw [← splitWord_packWord r, h, splitWord_packWord], congrArg packWord⟩

theorem packWord_and (r m : RawOp) :
    packWord r &&& packWord m = packWord ⟨r.op &&& m.op, r.sel &&& m.sel, r.reg &&& m.reg, r.zero &&& m.zero⟩ := by
  simp only [packWord, ← BitVec.and_append]

/-- A format's condition on `sel` and `reg` is its mask with its selector range. -/
theorem admits_iff_mask {f : Format} {sel : BitVec 4} {reg : BitVec 12} :
    f.admits sel reg = true ↔
      sel &&& (formatMask f).sel = 0 ∧ reg &&& (formatMask f).reg = 0 ∧ sel.toNat ≤ formatMaxSel f := by
  have hN : sel.toNat ≤ 0 ↔ sel = 0 := by revert sel; decide
  have hA : sel &&& 0xE = 0 ↔ sel.toNat ≤ 1 := by revert sel; decide
  cases f <;> simp only [Format.admits, formatMask, formatMaxSel, Bool.and_eq_true, beq_iff_eq, decide_eq_true_iff,
    BitVec.and_allOnes, BitVec.and_zero, hN, hA] <;> tauto

theorem opcodeRow_spelledBy {n : Nat} {f : Format} {w : Word} :
    (opcodeRow (n, f)).spelledBy w = true ↔
      (splitWord w).op = BitVec.ofNat 8 n ∧ (splitWord w).zero = 0 ∧
        f.admits (splitWord w).sel (splitWord w).reg = true := by
  have hfixed : (formatMask f).op = BitVec.allOnes 8 ∧ (formatMask f).zero = BitVec.allOnes 8 := by
    cases f <;> exact ⟨rfl, rfl⟩
  have hmask : w &&& packWord (formatMask f) = packWord (rawN (BitVec.ofNat 8 n)) ↔
      (splitWord w).op = BitVec.ofNat 8 n ∧ (splitWord w).sel &&& (formatMask f).sel = 0 ∧
        (splitWord w).reg &&& (formatMask f).reg = 0 ∧ (splitWord w).zero = 0 := by
    conv_lhs => rw [← packWord_splitWord w, packWord_and, packWord_inj, rawN, hfixed.1, hfixed.2]
    simp only [BitVec.and_allOnes, RawOp.mk.injEq]
  rw [OpcodeRow.spelledBy, opcodeRow, Bool.and_eq_true, beq_iff_eq, hmask, decide_eq_true_iff, admits_iff_mask]
  change _ ∧ (splitWord w).sel.toNat ≤ _ ↔ _
  tauto

theorem formatOf_of_mem {n : Nat} {f : Format} (h : (n, f) ∈ opFormats) :
    formatOf (BitVec.ofNat 8 n) = some f := by
  have hall : ∀ p ∈ opFormats, formatOf (BitVec.ofNat 8 p.1) = some p.2 := by decide
  exact hall _ h

theorem mem_of_formatOf {op : BitVec 8} {f : Format} (h : formatOf op = some f) : (op.toNat, f) ∈ opFormats := by
  obtain ⟨before, after, heq, -⟩ := List.lookup_eq_some_iff.1 h
  simp [heq]

/-- A word is spelled by a row of the table exactly where its fields are well-formed. -/
theorem exists_spelledBy_iff {w : Word} :
    (∃ r ∈ opcodeRows, r.spelledBy w = true) ↔ (splitWord w).wellFormed = true := by
  rw [opcodeRows_eq_map, wellFormed_iff]
  constructor
  · rintro ⟨_, hr, hw⟩
    obtain ⟨⟨n, f⟩, hmem, rfl⟩ := List.mem_map.1 hr
    obtain ⟨hop, hz, hf⟩ := opcodeRow_spelledBy.1 hw
    exact ⟨hz, f, hop ▸ formatOf_of_mem hmem, hf⟩
  · rintro ⟨hz, f, hop, hf⟩
    exact ⟨_, List.mem_map_of_mem (mem_of_formatOf hop), opcodeRow_spelledBy.2 ⟨by simp, hz, hf⟩⟩

/-! #### The statements -/

/-- Settles O2: packing and splitting are inverse, and each row of R82 is read back by its format's decoder. -/
theorem decodeOfEncode : Obligations.DecodeOfEncode := decode_encode

/-- Settles O3: the fields of a word that decodes are those of the operation's row. -/
theorem encodeOfDecode : Obligations.EncodeOfDecode := fun _ _ => encode_of_decode_ok

/-- Settles O4: to decode and to be spelled by a row are both to have well-formed fields. -/
theorem legalWordsAreTheTableWords : Obligations.LegalWordsAreTheTableWords :=
  fun _ => exists_decodeRaw_ok_iff.trans exists_spelledBy_iff.symm

/-- Settles O5: an illegal word is taken onto the operation port, which is outside every frame, and rejected. -/
theorem illegalWordIsAnsweredIllegal : Obligations.IllegalWordIsAnsweredIllegal := by
  intro w args s why hw
  obtain ⟨hanswer, hflag, hframe⟩ := reject_flag (s.issue .host args) .illegal .illegal
  refine ⟨_, ?_, hanswer, hflag, (Frame.issue _ s .host args).trans hframe⟩
  simp only [hostTransaction, hw, State.rejectIllegal]

/-- Settles O1: a legal sample is the word of its operation, evaluated; a refused one fails the first check of
R84 that the decoder makes on its fields. -/
theorem sampleWordsDecode : Obligations.SampleWordsDecode :=
  ⟨decode_encode .nop, decode_encode .sysFault, decode_encode (.cfgWr 0x110), decode_encode (.cfgRd 0x190),
    decode_encode (.encRead .B), decode_encode (.swLap .A), decode_encode .kinFwd, decode_encode (.kinSeg .B),
    decode_encode (.rampGen .A), decode_encode (.pidRun .B), decode_encode (.slotPut .homeReq),
    decode_encode (.slotGet (.duty .B)), decode_encode .fifoGet, decode_encode (.motOut .B),
    rfl, rfl, rfl, rfl, rfl, rfl⟩

end Sys2Proof.Machine

/-! ### The encoder and the stopwatch (spec/40_encoder.md R101 to R108) -/

namespace Sys2Proof.Machine

open Sys2Proof Host

/-! The wrap correction and the accepted movement, in integers. -/

/-- The 16-bit difference of two counter values, read as two's complement. -/
theorem sext16_sub (x y : Half) : sext16 (x - y) = ((x.toNat : Int) - (y.toNat : Int)).bmod 65536 := by
  rw [sext16, BitVec.toInt_sub, BitVec.toInt_eq_toNat_bmod, BitVec.toInt_eq_toNat_bmod, Int.bmod_sub_bmod,
    Int.sub_bmod_bmod]

/-- A counter that moved by `d` since the last sample differs from it by `d`, where `d` fits 16 bits. -/
theorem sext16_add_ofInt_sub {x : Half} {d : Int} (hlo : -32768 ≤ d) (hhi : d ≤ 32767) :
    sext16 (x + BitVec.ofInt 16 d - x) = d := by
  rw [sext16, add_sub_cancel_left, BitVec.toInt_ofInt_eq_self (by decide) (by omega) (by omega)]

theorem sext16_bounds (h : Half) : -32768 ≤ sext16 h ∧ sext16 h ≤ 32767 :=
  ⟨h.le_toInt, Int.le_of_lt_add_one h.toInt_lt⟩

theorem wrapI32_toInt (z : Int) : (wrapI32 z).toInt = z.bmod (2 ^ 32) := BitVec.toInt_ofInt z

theorem wrapI32_toInt_of_fits {z : Int} (hlo : -2 ^ 31 ≤ z) (hhi : z < 2 ^ 31) : (wrapI32 z).toInt = z :=
  BitVec.toInt_ofInt_eq_self (by decide) hlo hhi

theorem wrapCorrect_eq (d bound : Int) :
    wrapCorrect d bound = if bound < |d| then (if 0 ≤ d then d - 65536 else d + 65536) else d := by
  rw [wrapCorrect, Int.natCast_natAbs]

theorem wrapCorrect_of_le {d bound : Int} (h : |d| ≤ bound) : wrapCorrect d bound = d := by
  rw [wrapCorrect_eq, if_neg (not_lt.2 h)]

theorem wrapCorrect_of_lt {d bound : Int} (h : bound < |d|) :
    wrapCorrect d bound = if 0 ≤ d then d - 65536 else d + 65536 := by
  rw [wrapCorrect_eq, if_pos h]

/-- A corrected 16-bit difference is at most one turn of the counter, whatever the bound. -/
theorem abs_wrapCorrect_le {d : Int} (hlo : -32768 ≤ d) (hhi : d ≤ 32767) (bound : Int) :
    |wrapCorrect d bound| ≤ 65536 := by
  rw [wrapCorrect_eq, abs_le]
  split_ifs <;> omega

theorem abs_acceptedDelta_le (e : EncRegs) (raw : Half) : |acceptedDelta e raw| ≤ 65536 := by
  obtain ⟨hlo, hhi⟩ := sext16_bounds (raw - e.lastRaw)
  have h := abs_wrapCorrect_le hlo hhi (i32Val e.ovfBound)
  rw [acceptedDelta]
  split
  · rwa [abs_neg]
  · exact h

theorem acceptedDelta_of_movement {e : EncRegs} {d : Int} (hlo : -32768 ≤ d) (hhi : d ≤ 32767) :
    acceptedDelta e (e.lastRaw + BitVec.ofInt 16 d) =
      if e.inverted then -wrapCorrect d e.ovfBound.toInt else wrapCorrect d e.ovfBound.toInt := by
  rw [acceptedDelta, sext16_add_ofInt_sub hlo hhi, i32Val]

/-! What a sample leaves in the registers. -/

@[simp] theorem encSampled_raw (e : EncRegs) (raw : Half) : (encSampled e raw).raw = raw := rfl
@[simp] theorem encSampled_lastRaw (e : EncRegs) (raw : Half) : (encSampled e raw).lastRaw = raw := rfl
@[simp] theorem encSampled_ovfBound (e : EncRegs) (raw : Half) : (encSampled e raw).ovfBound = e.ovfBound := rfl
@[simp] theorem encSampled_inverted (e : EncRegs) (raw : Half) : (encSampled e raw).inverted = e.inverted := rfl

theorem encSampled_abs_toInt (e : EncRegs) (raw : Half) :
    (encSampled e raw).abs.toInt = (e.abs.toInt + acceptedDelta e raw).bmod (2 ^ 32) := wrapI32_toInt _

theorem encSampled_lastDelta_toInt (e : EncRegs) (raw : Half) :
    (encSampled e raw).lastDelta.toInt = acceptedDelta e raw := by
  obtain ⟨hlo, hhi⟩ := abs_le.1 (abs_acceptedDelta_le e raw)
  exact wrapI32_toInt_of_fits (by omega) (by omega)

/-- A sample writes four of the encoder registers (R101). -/
theorem readAxisReg_encSampled (x : AxisRegs) (raw : Half) {q : AxisReg} (habs : q ≠ .encAbs)
    (hdelta : q ≠ .encLastDelta) (hraw : q ≠ .encRaw) (hlast : q ≠ .encLastRaw) :
    readAxisReg { x with enc := encSampled x.enc raw } q = readAxisReg x q := by
  cases q with
  | encAbs => exact absurd rfl habs
  | encLastDelta => exact absurd rfl hdelta
  | encRaw => exact absurd rfl hraw
  | encLastRaw => exact absurd rfl hlast
  | _ => rfl

theorem readAxisReg_encAbs_zeroed (x : AxisRegs) {q : AxisReg} (habs : q ≠ .encAbs) :
    readAxisReg { x with enc := { x.enc with abs := 0 } } q = readAxisReg x q := by
  cases q with
  | encAbs => exact absurd rfl habs
  | _ => rfl

/-- The stopwatch of an axis is its two registers (R105, R106). -/
theorem readAxisReg_sw (x : AxisRegs) (r : SwRegs) {q : AxisReg} (hcount : q ≠ .swCount) (hlast : q ≠ .swLast) :
    readAxisReg { x with sw := r } q = readAxisReg x q := by
  cases q with
  | swCount => exact absurd rfl hcount
  | swLast => exact absurd rfl hlast
  | _ => rfl

/-- An update of one axis's registers keeps a frame that lists what it changes of them. -/
theorem Frame.setAxis {w : Writes} {s : State} {a : Axis} {x : AxisRegs}
    (hreg : ∀ q, .axis a q ∉ w.reg → readAxisReg x q = readAxisReg (s.axis a) q)
    (hbuf : ∀ i : BitVec 8, .rampBuf a i ∉ w.reg →
      bufRead x.ramp.buf i.toNat = bufRead (s.axis a).ramp.buf i.toNat)
    (hduty : a ∉ w.duty → x.dutyOut = (s.axis a).dutyOut ∧ x.dutyStb = (s.axis a).dutyStb) :
    Frame w s (s.setAxis a x) := by
  constructor
  case reg =>
    intro r _ hr
    cases r with
    | axis b q =>
      by_cases hb : b = a
      · subst hb; simpa [readReg] using hreg q hr
      · simp [hb]
    | rampBuf b i =>
      by_cases hb : b = a
      · subst hb; simpa [readReg] using hbuf i hr
      · simp [hb]
    | _ => simp
  case duty =>
    intro b hb
    by_cases hba : b = a
    · subst hba; simpa using hduty hb
    · simp [hba]
  all_goals simp

theorem Frame.mapEnc_encSampled (a : Axis) (s : State) (raw : Half) :
    Frame { reg := [.axis a .encAbs, .axis a .encLastDelta, .axis a .encRaw, .axis a .encLastRaw] } s
      (s.mapEnc a fun e => encSampled e raw) := by
  refine .setAxis (fun q hq => ?_) (fun _ _ => rfl) (fun _ => ⟨rfl, rfl⟩)
  simp only [List.mem_cons, List.not_mem_nil, or_false, Reg.axis.injEq, true_and, not_or] at hq
  obtain ⟨habs, hdelta, hraw, hlast⟩ := hq
  exact readAxisReg_encSampled _ raw habs hdelta hraw hlast

theorem Frame.mapEnc_abs_zero (a : Axis) (s : State) :
    Frame { reg := [.axis a .encAbs] } s (s.mapEnc a fun e => { e with abs := 0 }) :=
  .setAxis (fun _ hq => readAxisReg_encAbs_zeroed _ (by simpa using hq)) (fun _ _ => rfl) (fun _ => ⟨rfl, rfl⟩)

theorem Frame.mapSw (a : Axis) (s : State) (f : SwRegs → SwRegs) :
    Frame { reg := [.axis a .swCount, .axis a .swLast] } s (s.mapSw a f) := by
  refine .setAxis (fun q hq => ?_) (fun _ _ => rfl) (fun _ => ⟨rfl, rfl⟩)
  simp only [List.mem_cons, List.not_mem_nil, or_false, Reg.axis.injEq, true_and, not_or] at hq
  obtain ⟨hcount, hlast⟩ := hq
  exact readAxisReg_sw _ _ hcount hlast

/-! The operations where they are allowed (R85 step 2, R260). -/

section
variable {a : Axis} {s : State}

theorem exec_encRead (h : s.hostInRun = false) : exec (.encRead a) s = .next (encRead a s) :=
  congrArg Outcome.next (ownerOnly_allowed _ h)

theorem exec_encZero (h : s.hostInRun = false) :
    exec (.encZero a) s = .next ((s.mapEnc a fun e => { e with abs := 0 }).respond .ok {}) :=
  congrArg Outcome.next (ownerOnly_allowed _ h)

theorem exec_encPos (h : s.hostInRun = false) :
    exec (.encPos a) s = .next (s.respond .ok { w0 := ticksToMm (s.axis a).enc (s.axis a).enc.abs }) :=
  congrArg Outcome.next (ownerOnly_allowed _ h)

theorem exec_encDpos (h : s.hostInRun = false) :
    exec (.encDpos a) s = .next (s.respond .ok { w0 := ticksToMm (s.axis a).enc (s.axis a).enc.lastDelta }) :=
  congrArg Outcome.next (ownerOnly_allowed _ h)

theorem exec_swRestart (h : s.hostInRun = false) :
    exec (.swRestart a) s = .next ((s.mapSw a fun r => { r with last := 0, count := 0 }).respond .ok {}) :=
  congrArg Outcome.next (ownerOnly_allowed _ h)

theorem exec_swLap (h : s.hostInRun = false) : exec (.swLap a) s = .next (swLap a s) :=
  congrArg Outcome.next (ownerOnly_allowed _ h)

end

@[simp] theorem encRead_enc (a : Axis) (s : State) :
    ((encRead a s).axis a).enc = encSampled (s.axis a).enc (s.portEnc a) := by simp [encRead]

theorem encRead_answers (a : Axis) (s : State) :
    Answers (encRead a s) .ok { w0 := ((encRead a s).axis a).enc.abs } := ⟨rfl, by simp [encRead]⟩

@[simp] theorem encRead_flags (a : Axis) (s : State) : (encRead a s).flags = s.flags := by simp [encRead]
@[simp] theorem encRead_schedEn (a : Axis) (s : State) : (encRead a s).schedEn = s.schedEn := by simp [encRead]
@[simp] theorem encRead_pending (a : Axis) (s : State) : (encRead a s).pending = s.pending := by simp [encRead]

theorem encRead_frame (a : Axis) (s : State) :
    Frame { reg := [.axis a .encAbs, .axis a .encLastDelta, .axis a .encRaw, .axis a .encLastRaw] } s
      (encRead a s) := (Frame.mapEnc_encSampled a s _).respond _ _

@[simp] theorem swLap_sw (a : Axis) (s : State) :
    ((swLap a s).axis a).sw = { count := s.portSw a, last := s.portSw a } := by simp [swLap]

theorem swLap_answers (a : Axis) (s : State) :
    Answers (swLap a s) .ok { w0 := u16Word (s.portSw a - (s.axis a).sw.last) } := ⟨rfl, rfl⟩

/-- The elapsed count of a stopwatch is the difference of its counter modulo 2^16. -/
theorem u16Word_sub_toNat (c l : Half) :
    ((u16Word (c - l)).toNat : Int) = ((c.toNat : Int) - (l.toNat : Int)) % 65536 := by
  unfold u16Word
  bv_omega

/-- Settles O28: the one update of `ENC.ZERO` is the position's, and nothing is sampled. -/
theorem encZeroClearsThePositionOnly : Obligations.EncZeroClearsThePositionOnly := fun a s h =>
  ⟨_, exec_encZero h, ⟨rfl, rfl⟩, by simp [readReg, readAxisReg], (Frame.mapEnc_abs_zero a s).respond _ _⟩

/-- Settles O29: both conversions are `ticksToMm`, answered in a response to the state as it was. -/
theorem encConversionsAreReadOnly : Obligations.EncConversionsAreReadOnly := fun _ s h =>
  ⟨⟨_, exec_encPos h, ⟨rfl, rfl⟩, (Frame.refl {} s).respond _ _⟩,
    ⟨_, exec_encDpos h, ⟨rfl, rfl⟩, (Frame.refl {} s).respond _ _⟩⟩

/-- Settles O30: a restart writes zeros without the port, a lap writes the port and answers the difference. -/
theorem stopwatchRestartAndLap : Obligations.StopwatchRestartAndLap := by
  intro a s h
  constructor
  · exact ⟨_, exec_swRestart h, ⟨rfl, rfl⟩, by simp, by simp, (Frame.mapSw a s _).respond _ _⟩
  · obtain ⟨hstatus, hres⟩ := swLap_answers a s
    refine ⟨_, exec_swLap h, hstatus, by rw [hres], ?_, by simp, by simp, (Frame.mapSw a s _).respond _ _⟩
    rw [hres]
    exact u16Word_sub_toNat _ _

/-- Settles O27: the movement an `ENC.READ` accepts is the corrected difference of R101, and it fits the
register it is latched in, whatever the bound. -/
theorem encReadAccumulatesTheCorrectedDelta : Obligations.EncReadAccumulatesTheCorrectedDelta := by
  intro a s h e raw d c delta
  have hdelta : acceptedDelta e raw = delta := by
    rw [acceptedDelta, wrapCorrect_eq, sext16_sub]
    rfl
  refine ⟨_, exec_encRead h, encRead_answers a s, ?_, ?_, ?_, ?_, encRead_frame a s⟩
  · rw [encRead_enc, encSampled_abs_toInt, hdelta]
  · rw [encRead_enc, encSampled_lastDelta_toInt, hdelta]
  · rw [encRead_enc, encSampled_raw]
  · rw [encRead_enc, encSampled_lastRaw]

/-- Settles O32: beyond the bound the correction shifts, by a whole turn of the counter, a movement that made no
turn. -/
theorem boundViolationIsSilent : Obligations.BoundViolationIsSilent := by
  intro a s d h e hbound hviolated hlo hhi hport c
  have hd : 1 < |d| := lt_of_le_of_lt hbound hviolated
  have hd0 : d ≠ 0 := by rintro rfl; simp at hd
  have hc : wrapCorrect d e.ovfBound.toInt = c := by
    rw [wrapCorrect_of_lt hviolated]
    exact if_congr (by omega) rfl rfl
  have hdelta : ((encRead a s).axis a).enc.lastDelta.toInt = if e.inverted then -c else c := by
    rw [encRead_enc, encSampled_lastDelta_toInt, hport, acceptedDelta_of_movement hlo hhi, hc]
  refine ⟨_, exec_encRead h, (encRead_answers a s).1, encRead_flags a s, hdelta, ?_⟩
  rcases lt_or_gt_of_ne hd0 with hneg | hpos
  · have hcv : c = d + 65536 := if_neg (by omega)
    rw [hcv, abs_of_neg hneg, abs_of_pos (by omega)]
    omega
  · have hcv : c = d - 65536 := if_pos hpos
    rw [hcv, abs_of_pos hpos, abs_of_neg (by omega)]
    omega

/-! A run of samples (R107). -/

@[simp] theorem afterTaking_enc (s : State) (l : List Event) (a : Axis) :
    ((afterTaking s l).axis a).enc = (s.axis a).enc := by cases a <;> rfl

/-- A step on a pending change of the ports presents the new values (spec/10_state.md R42). -/
theorem step_drive {s : State} {p : Ports} {rest : List Event} (h : s.pending = .drive p :: rest) :
    step s = .next ((afterTaking s rest).setPorts p) := by
  rw [step, stepEvent, nextEvent_of_pending h, takeEvent_of_pending h, applyEvent]

theorem portEnc_of_ports_withEncCnt {s : State} {p : Ports} {a : Axis} {raw : Half}
    (h : s.ports = withEncCnt p a raw) : s.portEnc a = raw := by
  cases a <;> simp [State.portEnc, h, withEncCnt]

theorem step_encRead {s : State} {a : Axis} {rest : List Event}
    (hp : s.pending = hostEvent (.encRead a) {} :: rest) (hmode : s.schedEn = false) :
    step s = .next (encRead a ((afterTaking s rest).issue .host {})) :=
  (step_hostEvent hp).trans (exec_encRead (by simpa using hmode))

/-- One sample by the host in configuration mode: the counter is presented, then read. -/
theorem runSteps_sample {s : State} {p : Ports} {a : Axis} {raw : Half} {rest : List Event}
    (hmode : s.schedEn = false)
    (hp : s.pending = .drive (withEncCnt p a raw) :: hostEvent (.encRead a) {} :: rest) :
    ∃ t, runSteps 2 s = .next t ∧ t.pending = rest ∧ t.schedEn = false ∧
      (t.axis a).enc = encSampled (s.axis a).enc raw := by
  let x := (afterTaking s (hostEvent (.encRead a) {} :: rest)).setPorts (withEncCnt p a raw)
  have hread : step x = .next (encRead a ((afterTaking x rest).issue .host {})) :=
    step_encRead (by simp [x]) (by simpa [x] using hmode)
  have hport : ((afterTaking x rest).issue .host {}).portEnc a = raw :=
    portEnc_of_ports_withEncCnt (p := p) rfl
  refine ⟨_, (runSteps_succ 1 (step_drive hp)).trans (runSteps_succ 0 hread), by simp,
    by simpa [x] using hmode, ?_⟩
  rw [encRead_enc, hport]
  simp [x]

/-- Within a legal bound the movement accepted is the true one, so the sum of the movements accumulates modulo
2^32. -/
theorem runSteps_samples {s : State} {p : Ports} {a : Axis} {ds : List Int} {rest : List Event}
    (hbound : (s.axis a).enc.ovfBound.toInt ≤ 32767) (hds : ∀ d ∈ ds, |d| ≤ (s.axis a).enc.ovfBound.toInt)
    (hmode : s.schedEn = false)
    (hp : s.pending = sampleEvents p a (counterValues (s.axis a).enc.lastRaw ds) ++ rest) :
    ∃ t, runSteps (2 * ds.length) s = .next t ∧ t.pending = rest ∧
      (t.axis a).enc.abs.toInt =
        ((s.axis a).enc.abs.toInt + (if (s.axis a).enc.inverted then -ds.sum else ds.sum)).bmod (2 ^ 32) := by
  induction ds generalizing s with
  | nil =>
    refine ⟨s, rfl, hp, ?_⟩
    rw [List.sum_nil, neg_zero, ite_self, add_zero, BitVec.toInt_bmod_cancel]
  | cons d ds ih =>
    obtain ⟨hd, hds⟩ := List.forall_mem_cons.1 hds
    obtain ⟨hlo, hhi⟩ := abs_le.1 (hd.trans hbound)
    obtain ⟨x, hsample, hxp, hxmode, hxe⟩ := runSteps_sample hmode hp
    have hxabs : (x.axis a).enc.abs.toInt =
        ((s.axis a).enc.abs.toInt + (if (s.axis a).enc.inverted then -d else d)).bmod (2 ^ 32) := by
      rw [hxe, encSampled_abs_toInt, acceptedDelta_of_movement (by omega) hhi, wrapCorrect_of_le hd]
    obtain ⟨t, hrun, htp, htabs⟩ := ih (by simpa [hxe] using hbound) (by simpa [hxe] using hds) hxmode
      (by rw [hxp, hxe]; rfl)
    refine ⟨t, ?_, htp, ?_⟩
    · rw [List.length_cons, Nat.mul_succ, Nat.add_comm]
      exact (runSteps_add _ _ hsample).trans hrun
    · rw [htabs, hxabs, Int.bmod_add_bmod, hxe, encSampled_inverted, List.sum_cons]
      congr 1
      split <;> omega

/-- Settles O31: a run of samples, each of which accepts the true movement. -/
theorem encoderTracksAnUnboundedCounter : Obligations.EncoderTracksAnUnboundedCounter :=
  fun _ _ _ _ _ hbound hds hmode hp => runSteps_samples hbound hds hmode hp

end Sys2Proof.Machine

/-! ### The kinematics (spec/41_kinematics.md R120 to R125) -/

namespace Sys2Proof.Machine

open Sys2Proof Host

/-- An update of the Kinematics registers changes no other register (spec/10_state.md R30). -/
theorem readReg_setKin_of_not_mem (s : State) (k : KinRegs) {r : Reg} (h : r ∉ kinematicsRegs) :
    readReg (s.setKin k) r = readReg s r := by
  cases r with
  | kinCurX | kinCurY | kinCurF | kinLastX | kinLastY | kinLastF => exact absurd (by decide) h
  | _ => simp

theorem Frame.setKin (s : State) (k : KinRegs) : Frame { reg := kinematicsRegs } s (s.setKin k) := by
  constructor
  case reg => exact fun r _ hr => readReg_setKin_of_not_mem s k hr
  all_goals simp

/-- The reset content of the Kinematics registers reads as 0, which is the pattern of +0.0 (R122). -/
theorem readReg_setKin_empty (s : State) {r : Reg} (h : r ∈ kinematicsRegs) : readReg (s.setKin {}) r = 0 := by
  simp only [kinematicsRegs, List.mem_cons, List.not_mem_nil, or_false] at h
  obtain rfl | rfl | rfl | rfl | rfl | rfl := h <;> rfl

/-! The operations where they are allowed (R85 step 2, R260); the two maps are allowed everywhere. -/

theorem exec_kinUpdate {s : State} (h : s.hostInRun = false) : exec .kinUpdate s = .next (kinUpdate s) :=
  congrArg Outcome.next (ownerOnly_allowed _ h)

theorem exec_kinReset {s : State} (h : s.hostInRun = false) :
    exec .kinReset s = .next ((s.setKin {}).respond .ok {}) :=
  congrArg Outcome.next (ownerOnly_allowed _ h)

theorem exec_kinFwd (s : State) :
    exec .kinFwd s = .next (s.respond .ok
      { w0 := fwdA s.op.args.w0 s.op.args.w1, w1 := fwdB s.op.args.w0 s.op.args.w1 }) := rfl

theorem exec_kinInv (s : State) :
    exec .kinInv s = .next (s.respond .ok
      { w0 := invX s.op.args.w0 s.op.args.w1, w1 := invY s.op.args.w0 s.op.args.w1 }) := rfl

theorem exec_kinSeg {a : Axis} {s : State} (h : s.hostInRun = false) :
    exec (.kinSeg a) s = .next (kinSeg a s) :=
  congrArg Outcome.next (ownerOnly_allowed _ h)

/-! The two outcomes of `KIN.SEG`. -/

theorem noSegment_eq_true {k : KinRegs} :
    noSegment k = true ↔ Num.feq (pathLen k) zeroF = true ∨ Num.feq k.curF zeroF = true := by
  rw [noSegment, Bool.or_eq_true]

theorem noSegment_eq_false {k : KinRegs} :
    noSegment k = false ↔ Num.feq (pathLen k) zeroF = false ∧ Num.feq k.curF zeroF = false := by
  rw [noSegment, Bool.or_eq_false_iff]

theorem kinSeg_of_noSegment (a : Axis) {s : State} (h : noSegment s.kin = true) :
    kinSeg a s = s.reject .noMotion (some (.noMotion a)) := if_pos h

theorem kinSeg_of_segment (a : Axis) {s : State} (h : noSegment s.kin = false) :
    kinSeg a s = s.respond .ok (segment s.kin a) := if_neg (Bool.eq_false_iff.1 h)

/-! The statements. -/

/-- Settles O35: the guard of `KIN.SEG` separates a refusal, which raises the axis's flag only, from a response
with the segment, which writes nothing. -/
theorem kinSegGuardsTheZeroDistance : Obligations.KinSegGuardsTheZeroDistance := by
  intro a s h k dx dy len m
  have hm : fwdAxis a = m := by cases a <;> rfl
  constructor
  · intro hzero
    refine ⟨_, exec_kinSeg h, ?_⟩
    rw [kinSeg_of_noSegment a (noSegment_eq_true.2 hzero)]
    exact reject_flag s .noMotion (.noMotion a)
  · intro hlen hfeed
    refine ⟨_, exec_kinSeg h, ?_⟩
    rw [kinSeg_of_segment a (noSegment_eq_false.2 ⟨hlen, hfeed⟩), segment, hm]
    exact ⟨⟨rfl, rfl⟩, (Frame.refl {} s).respond _ _⟩

/-- Settles O33: both operations are one update of the Kinematics registers, with an answer. -/
theorem kinematicsRotatesAndResets : Obligations.KinematicsRotatesAndResets := by
  intro s h
  constructor
  · exact ⟨_, exec_kinUpdate h, ⟨rfl, rfl⟩, rfl, (Frame.setKin s _).respond _ _⟩
  · refine ⟨_, exec_kinReset h, ⟨rfl, rfl⟩, fun r hr => ?_, (Frame.setKin s {}).respond _ _⟩
    rw [readReg_respond, readReg_setKin_empty s hr]

/-- Settles O34: both maps are answered in a response to the state as it was, without the check of the host's
rights. -/
theorem coreXyMapsArePure : Obligations.CoreXyMapsArePure := fun s =>
  ⟨⟨_, exec_kinFwd s, ⟨rfl, rfl⟩, (Frame.refl {} s).respond _ _⟩,
    ⟨_, exec_kinInv s, ⟨rfl, rfl⟩, (Frame.refl {} s).respond _ _⟩⟩

end Sys2Proof.Machine

/-! ### The ramp generator (spec/42_ramp.md R140 to R147) -/

namespace Sys2Proof.Machine

open Sys2Proof Host

/-! The operations where they are allowed (R85 step 2, R260). -/

section
variable {a : Axis} {s : State}

theorem exec_rampLoad (h : s.hostInRun = false) : exec (.rampLoad a) s = .next (rampLoad a s) :=
  congrArg Outcome.next (ownerOnly_allowed _ h)

theorem exec_rampInit (h : s.hostInRun = false) : exec (.rampInit a) s = .next (rampInit a s) :=
  congrArg Outcome.next (ownerOnly_allowed _ h)

theorem exec_rampGen (h : s.hostInRun = false) : exec (.rampGen a) s = .next (rampGen a s) :=
  congrArg Outcome.next (ownerOnly_allowed _ h)

theorem exec_rampNext (h : s.hostInRun = false) : exec (.rampNext a) s = .next (rampNext a s) :=
  congrArg Outcome.next (ownerOnly_allowed _ h)

theorem exec_rampRelease (h : s.hostInRun = false) : exec (.rampRelease a) s = .next (rampRelease a s) :=
  congrArg Outcome.next (ownerOnly_allowed _ h)

end

/-! `RAMP.LOAD` (R141). -/

section
variable {a : Axis} {s : State}

theorem rampLoad_of_busy (h : (s.axis a).ramp.state ≠ .idle) : rampLoad a s = s.reject .busy none := if_pos h

theorem rampLoad_of_idle (h : (s.axis a).ramp.state = .idle) :
    rampLoad a s =
      (s.mapRamp a fun r =>
        { r with cur := s.op.args.w0, last := s.op.args.w1, feed := s.op.args.w2 }).respond .ok {} :=
  if_neg (not_not.2 h)

end

theorem Frame.mapRamp_loaded (a : Axis) (s : State) (cur last feed : Word) :
    Frame { reg := [.axis a .rampCur, .axis a .rampLast, .axis a .rampFeed] } s
      (s.mapRamp a fun r => { r with cur := cur, last := last, feed := feed }) := by
  refine .setAxis (fun q hq => ?_) (fun _ _ => rfl) (fun _ => ⟨rfl, rfl⟩)
  cases q with
  | rampCur | rampLast | rampFeed => simp at hq
  | _ => rfl

/-- Settles O36: outside `IDLE` the operation is a refusal without a flag, in `IDLE` one update of the three
operands. -/
theorem rampLoadLatchesInIdleOnly : Obligations.RampLoadLatchesInIdleOnly := by
  intro a s h
  constructor
  · intro hbusy
    refine ⟨_, exec_rampLoad h, ?_⟩
    rw [rampLoad_of_busy hbusy]
    exact reject_none s .busy
  · intro hidle
    refine ⟨_, exec_rampLoad h, ?_⟩
    rw [rampLoad_of_idle hidle]
    exact ⟨⟨rfl, rfl⟩, by simp [readAxisReg], by simp [readAxisReg], by simp [readAxisReg],
      (Frame.mapRamp_loaded a s _ _ _).respond _ _⟩

/-! `RAMP.RELEASE` (R146). -/

theorem Frame.mapRamp_released (a : Axis) (s : State) :
    Frame { reg := [.axis a .rampState, .axis a .rampCount, .axis a .rampRd, .axis a .rampN] } s
      (s.mapRamp a fun r => { r with state := .idle, count := 0, rd := 0, n := 0 }) := by
  refine .setAxis (fun q hq => ?_) (fun _ _ => rfl) (fun _ => ⟨rfl, rfl⟩)
  cases q with
  | rampState | rampCount | rampRd | rampN => simp at hq
  | _ => rfl

/-- Settles O41: one update from every state, of the four registers that read as 0 in `IDLE`. -/
theorem rampReleaseGoesToIdle : Obligations.RampReleaseGoesToIdle := fun a s h =>
  ⟨_, exec_rampRelease h, ⟨rfl, rfl⟩, by simp [rampRelease, readAxisReg, rampStateWord],
    (Frame.mapRamp_released a s).respond _ _⟩

/-! `RAMP.INIT` (R142). -/

/-- A non-zero distance at zero feed: a segment that would never end. -/
def NoFeed (r : RampRegs) : Prop := Num.feq r.cur r.last = false ∧ Num.feq r.feed zeroF = true

/-- The travel time of a segment that ends. -/
def segmentTime (r : RampRegs) : Word :=
  if Num.feq r.cur r.last then zeroF else Num.fdiv (Num.fabs (Num.fsub r.cur r.last)) r.feed

theorem travelTime_of_noFeed {r : RampRegs} (h : NoFeed r) : travelTime r = none := by
  obtain ⟨hdist, hfeed⟩ := h
  simp [travelTime, hdist, hfeed]

theorem travelTime_of_feed {r : RampRegs} (h : ¬NoFeed r) : travelTime r = some (segmentTime r) := by
  unfold travelTime segmentTime
  split
  case isTrue => rfl
  case isFalse hdist =>
    rw [if_neg fun hfeed => h ⟨Bool.eq_false_iff.2 hdist, hfeed⟩]

/-- The ramp registers after a segment of travel time `tt` has been sized. -/
def sized (r : RampRegs) (tt : Word) : RampRegs :=
  { r with
    tt := tt
    n := u32Word (sliceCount tt r.slice)
    count := u32Word (waypointCount tt r.slice)
    rd := 0
    state := .allocated }

section
variable {a : Axis} {s : State}

theorem rampInit_of_busy (h : (s.axis a).ramp.state ≠ .idle) : rampInit a s = s.reject .busy none := if_pos h

theorem rampInit_of_noFeed (hidle : (s.axis a).ramp.state = .idle) (h : NoFeed (s.axis a).ramp) :
    rampInit a s = s.reject .noMotion (some (.noMotion a)) := by
  simp [rampInit, hidle, travelTime_of_noFeed h]

theorem rampInit_of_tooLong (hidle : (s.axis a).ramp.state = .idle) (hfeed : ¬NoFeed (s.axis a).ramp)
    (h : s.params.rampCap < waypointCount (segmentTime (s.axis a).ramp) (s.axis a).ramp.slice) :
    rampInit a s = s.reject .allocFault (some (.alloc a)) := by
  simp [rampInit, hidle, travelTime_of_feed hfeed, h]

theorem rampInit_of_fits (hidle : (s.axis a).ramp.state = .idle) (hfeed : ¬NoFeed (s.axis a).ramp)
    (h : waypointCount (segmentTime (s.axis a).ramp) (s.axis a).ramp.slice ≤ s.params.rampCap) :
    rampInit a s =
      (s.mapRamp a fun r => sized r (segmentTime (s.axis a).ramp)).respond .ok
        { w0 := u32Word (waypointCount (segmentTime (s.axis a).ramp) (s.axis a).ramp.slice) } := by
  simp [rampInit, hidle, travelTime_of_feed hfeed, not_lt.2 h, sized]

end

theorem Frame.mapRamp_sized (a : Axis) (s : State) (tt : Word) :
    Frame { reg := [.axis a .rampTt, .axis a .rampN, .axis a .rampCount, .axis a .rampRd,
                    .axis a .rampState] } s (s.mapRamp a fun r => sized r tt) := by
  refine .setAxis (fun q hq => ?_) (fun _ _ => rfl) (fun _ => ⟨rfl, rfl⟩)
  cases q with
  | rampTt | rampN | rampCount | rampRd | rampState => simp at hq
  | _ => rfl

/-- Settles O37: the checks in their order, each a refusal; past them one update, which latches the travel time
and the two counts it gives. -/
theorem rampInitSizesTheSegment : Obligations.RampInitSizesTheSegment := by
  intro a s h r tt n count noFeed
  refine ⟨?busy, ?noMotion, ?allocFault, ?allocated⟩
  case busy =>
    intro hbusy
    refine ⟨_, exec_rampInit h, ?_⟩
    rw [rampInit_of_busy hbusy]
    exact reject_none s .busy
  case noMotion =>
    intro hidle hnoFeed
    refine ⟨_, exec_rampInit h, ?_⟩
    rw [rampInit_of_noFeed hidle hnoFeed]
    exact reject_flag s .noMotion (.noMotion a)
  case allocFault =>
    intro hidle hfeed hlong
    refine ⟨_, exec_rampInit h, ?_⟩
    rw [rampInit_of_tooLong hidle hfeed hlong]
    exact reject_flag s .allocFault (.alloc a)
  case allocated =>
    intro hidle hfeed hfits
    refine ⟨_, exec_rampInit h, ?_⟩
    rw [rampInit_of_fits hidle hfeed hfits]
    have hramp (q : AxisReg) : readReg (s.mapRamp a fun r => sized r tt) (.axis a q) =
        readAxisReg { s.axis a with ramp := sized r tt } q := by simp [r]
    refine ⟨⟨rfl, rfl⟩, ?_, ?_, ?_, ?_, by simp [sized], (Frame.mapRamp_sized a s tt).respond _ _⟩
    all_goals exact (readReg_respond _ _ _ _).trans (hramp _)

/-! `RAMP.GEN` (R144). -/

/-- The ramp registers after the waypoints have been generated. -/
def filled (r : RampRegs) : RampRegs :=
  { r with buf := generated r, termFeed := r.feed, rd := 0, state := .ready }

section
variable {a : Axis} {s : State}

theorem rampGen_of_idle (h : (s.axis a).ramp.state = .idle) :
    rampGen a s = s.reject .notInit (some (.notInit a)) := by simp only [rampGen, h]

theorem rampGen_of_ready (h : (s.axis a).ramp.state = .ready) : rampGen a s = s.reject .busy none := by
  simp only [rampGen, h]

theorem rampGen_of_allocated (h : (s.axis a).ramp.state = .allocated) :
    rampGen a s = (s.mapRamp a filled).respond .ok { w0 := (s.axis a).ramp.count } := by
  simp only [rampGen, h]
  rfl

end

/-- The words of the buffer that `RAMP.GEN` writes, for a segment of `count` waypoints. -/
theorem rampBuf_mem_written {a : Axis} {i : BitVec 8} {count : Nat} (h : i.toNat < count) :
    Reg.rampBuf a i ∈ (List.range count).map fun i => Reg.rampBuf a (BitVec.ofNat 8 i) :=
  List.mem_map.2 ⟨i.toNat, List.mem_range.2 h, by rw [BitVec.ofNat_toNat, BitVec.setWidth_eq]⟩

theorem bufRead_generated_of_le {cap : Nat} {r : RampRegs} (h : bufWf cap r.buf = true)
    (hone : 1 ≤ r.count.toNat) (hcap : r.count.toNat ≤ cap) {j : Nat} (hj : r.count.toNat ≤ j) :
    bufRead (generated r) j = bufRead r.buf j := by
  rw [bufRead_generated h hcap, if_neg (by omega), if_neg (by omega)]

theorem bufRead_generated_of_lt {cap : Nat} {r : RampRegs} (h : bufWf cap r.buf = true)
    (hcap : r.count.toNat ≤ cap) {j : Nat} (hj : j + 1 < r.count.toNat) :
    bufRead (generated r) j = waypoint r j := by
  rw [bufRead_generated h hcap, if_neg (by omega), if_pos (by omega)]

theorem bufRead_generated_last {cap : Nat} {r : RampRegs} (h : bufWf cap r.buf = true)
    (hcap : r.count.toNat ≤ cap) {j : Nat} (hj : j + 1 = r.count.toNat) :
    bufRead (generated r) j = r.cur := by
  rw [bufRead_generated h hcap, if_pos (by omega)]

theorem Frame.mapRamp_filled {a : Axis} {s : State} {cap : Nat} (h : bufWf cap (s.axis a).ramp.buf = true)
    (hone : 1 ≤ (s.axis a).ramp.count.toNat) (hcap : (s.axis a).ramp.count.toNat ≤ cap) :
    Frame { reg := [.axis a .rampTermFeed, .axis a .rampRd, .axis a .rampState] ++
                   (List.range (s.axis a).ramp.count.toNat).map fun i => .rampBuf a (BitVec.ofNat 8 i) } s
      (s.mapRamp a filled) := by
  refine .setAxis (fun q hq => ?_) (fun i hi => ?_) (fun _ => ⟨rfl, rfl⟩)
  · cases q with
    | rampTermFeed | rampRd | rampState => simp at hq
    | _ => rfl
  · have hout : (s.axis a).ramp.count.toNat ≤ i.toNat :=
      not_lt.1 fun hlt => hi (List.mem_append_right _ (rampBuf_mem_written hlt))
    exact bufRead_generated_of_le h hone hcap hout

/-- Settles O38: in `ALLOCATED` the operation is one update, and the generated buffer is read word by word; the
premise gives the canonical form that reading back needs, and a count of at least 1, so that the terminal word
stands below the count. -/
theorem rampGenInterpolates : Obligations.RampGenInterpolates := by
  intro a s h _ hok r d word
  refine ⟨?notInit, ?busy, ?generated⟩
  case notInit =>
    intro hidle
    refine ⟨_, exec_rampGen h, ?_⟩
    rw [rampGen_of_idle hidle]
    exact reject_flag s .notInit (.notInit a)
  case busy =>
    intro hready
    refine ⟨_, exec_rampGen h, ?_⟩
    rw [rampGen_of_ready hready]
    exact reject_none s .busy
  case generated =>
    intro halloc
    obtain ⟨hbuf, hone, hcap, -⟩ := (rampOk_allocated halloc).1 hok
    refine ⟨_, exec_rampGen h, ?_⟩
    rw [rampGen_of_allocated halloc]
    have hword (i : BitVec 8) : readReg ((s.mapRamp a filled).respond .ok { w0 := r.count }) (.rampBuf a i) =
        bufRead (generated r) i.toNat := by simp [filled, r]
    refine ⟨⟨rfl, rfl⟩, fun i hi => ?_, fun i hi => ?_, by simp [readAxisReg, filled, r],
      by simp [readAxisReg, filled], by simp [filled], (Frame.mapRamp_filled hbuf hone hcap).respond _ _⟩
    · exact (hword i).trans (bufRead_generated_of_lt hbuf hcap hi)
    · exact (hword i).trans (bufRead_generated_last hbuf hcap hi)

/-! `RAMP.NEXT` (R145). -/

section
variable {a : Axis} {s : State}

theorem rampNext_of_not_ready (h : (s.axis a).ramp.state ≠ .ready) :
    rampNext a s = s.reject .notInit (some (.notInit a)) := if_pos h

theorem rampNext_of_drained (hready : (s.axis a).ramp.state = .ready)
    (h : (s.axis a).ramp.rd = (s.axis a).ramp.count) : rampNext a s = s.reject .empty none := by
  simp [rampNext, hready, h]

theorem rampNext_of_waypoint (hready : (s.axis a).ramp.state = .ready)
    (h : (s.axis a).ramp.rd ≠ (s.axis a).ramp.count) :
    rampNext a s =
      (s.mapRamp a fun r => { r with rd := r.rd + 1 }).respond .ok
        { w0 := bufRead (s.axis a).ramp.buf (s.axis a).ramp.rd.toNat
          w1 := (s.axis a).ramp.count - ((s.axis a).ramp.rd + 1) } := by
  simp [rampNext, hready, h]

end

theorem Frame.mapRamp_advanced (a : Axis) (s : State) :
    Frame { reg := [.axis a .rampRd] } s (s.mapRamp a fun r => { r with rd := r.rd + 1 }) := by
  refine .setAxis (fun q hq => ?_) (fun _ _ => rfl) (fun _ => ⟨rfl, rfl⟩)
  cases q with
  | rampRd => simp at hq
  | _ => rfl

@[simp] theorem afterTaking_ramp (s : State) (l : List Event) (a : Axis) :
    ((afterTaking s l).axis a).ramp = (s.axis a).ramp := by cases a <;> rfl

/-- One call of the host in configuration mode, with a waypoint left. -/
theorem step_rampNext {s : State} {a : Axis} {rest : List Event}
    (hp : s.pending = hostEvent (.rampNext a) {} :: rest) (hmode : s.schedEn = false)
    (hready : (s.axis a).ramp.state = .ready) (hrd : (s.axis a).ramp.rd ≠ (s.axis a).ramp.count) :
    ∃ t, step s = .next t ∧ t.pending = rest ∧ t.schedEn = false ∧
      Answers t .ok
        { w0 := bufRead (s.axis a).ramp.buf (s.axis a).ramp.rd.toNat
          w1 := (s.axis a).ramp.count - ((s.axis a).ramp.rd + 1) } ∧
      (t.axis a).ramp = { (s.axis a).ramp with rd := (s.axis a).ramp.rd + 1 } := by
  refine ⟨_, (step_hostEvent hp).trans (exec_rampNext (by simpa using hmode)), ?_⟩
  rw [rampNext_of_waypoint (by simpa using hready) (by simpa using hrd)]
  exact ⟨by simp, by simpa using hmode, ⟨rfl, by simp⟩, by simp⟩

/-- Below the count a read index counts on without wrapping. -/
theorem rd_succ_toNat {rd count : Word} (h : rd.toNat < count.toNat) : (rd + 1).toNat = rd.toNat + 1 := by
  bv_omega

theorem count_sub_rd_succ {rd count : Word} (h : rd.toNat < count.toNat) :
    count - (rd + 1) = BitVec.ofNat 32 (count.toNat - (rd.toNat + 1)) := by
  rw [← rd_succ_toNat h]
  bv_omega

/-- Of a run of calls in configuration mode the last answers the waypoint that stood as many places on. -/
theorem runSteps_rampNexts {s : State} {a : Axis} {n : Nat} {rest : List Event}
    (hready : (s.axis a).ramp.state = .ready)
    (hn : (s.axis a).ramp.rd.toNat + n < (s.axis a).ramp.count.toNat) (hmode : s.schedEn = false)
    (hp : s.pending = List.replicate (n + 1) (hostEvent (.rampNext a) {}) ++ rest) :
    ∃ t, runSteps (n + 1) s = .next t ∧ t.pending = rest ∧
      Answers t .ok
        { w0 := bufRead (s.axis a).ramp.buf ((s.axis a).ramp.rd.toNat + n)
          w1 := BitVec.ofNat 32 ((s.axis a).ramp.count.toNat - ((s.axis a).ramp.rd.toNat + n + 1)) } ∧
      (t.axis a).ramp.rd.toNat = (s.axis a).ramp.rd.toNat + n + 1 ∧ (t.axis a).ramp.state = .ready := by
  induction n generalizing s with
  | zero =>
    obtain ⟨t, hstep, htp, -, hans, htr⟩ := step_rampNext hp hmode hready fun h => by simp [h] at hn
    rw [count_sub_rd_succ hn] at hans
    exact ⟨t, runSteps_succ 0 hstep, htp, hans, by rw [htr]; exact rd_succ_toNat hn, by rw [htr]; exact hready⟩
  | succ n ih =>
    have hlt : (s.axis a).ramp.rd.toNat < (s.axis a).ramp.count.toNat := by omega
    obtain ⟨x, hstep, hxp, hxmode, -, hxr⟩ := step_rampNext hp hmode hready fun h => by simp [h] at hlt
    have hxrd : (x.axis a).ramp.rd.toNat = (s.axis a).ramp.rd.toNat + 1 := by rw [hxr]; exact rd_succ_toNat hlt
    have hxcount : (x.axis a).ramp.count = (s.axis a).ramp.count := by rw [hxr]
    have hxbuf : (x.axis a).ramp.buf = (s.axis a).ramp.buf := by rw [hxr]
    obtain ⟨t, hrun, ht⟩ := ih (by rw [hxr]; exact hready) (by rw [hxrd, hxcount]; omega) hxmode hxp
    rw [hxrd, hxcount, hxbuf, Nat.add_right_comm _ 1 n] at ht
    exact ⟨t, (runSteps_succ _ hstep).trans hrun, ht⟩

/-- Settles O39: the three outcomes of one call; and a run of calls, each of which advances the read index by one
and leaves count and buffer. -/
theorem rampNextTakesTheWaypointsInOrder : Obligations.RampNextTakesTheWaypointsInOrder := by
  refine ⟨?call, fun s a n rest hready hn hmode hp => runSteps_rampNexts hready hn hmode hp⟩
  intro a s h r
  refine ⟨?notInit, ?empty, ?waypoint⟩
  case notInit =>
    intro hnot
    refine ⟨_, exec_rampNext h, ?_⟩
    rw [rampNext_of_not_ready hnot]
    exact reject_flag s .notInit (.notInit a)
  case empty =>
    intro hready hdrained
    refine ⟨_, exec_rampNext h, ?_⟩
    rw [rampNext_of_drained hready hdrained]
    exact reject_none s .empty
  case waypoint =>
    intro hready hrd
    refine ⟨_, exec_rampNext h, ?_⟩
    rw [rampNext_of_waypoint hready hrd]
    exact ⟨⟨rfl, rfl⟩, by simp [readAxisReg, r], (Frame.mapRamp_advanced a s).respond _ _⟩

end Sys2Proof.Machine

/-! ### The order of the numbers and the clamp (spec/00_scope.md R14, R16) -/

namespace Sys2Proof.Machine.Num

open Sys2Proof

/-! The classes of a pattern, by its magnitude. -/

theorem expField_eq (x : Word) : expField x = magnitude x / 2 ^ 23 := by unfold expField magnitude; omega

theorem fracField_eq (x : Word) : fracField x = magnitude x % 2 ^ 23 := by unfold fracField magnitude; omega

theorem isNaN_eq_false_iff {x : Word} : isNaN x = false ↔ magnitude x ≤ infMag := by
  have hlt : magnitude x < 2 ^ 31 := Nat.mod_lt _ (by decide)
  rw [isNaN, expField_eq, fracField_eq, infMag, Bool.and_eq_false_iff, beq_eq_false_iff_ne, bne_eq_false_iff_eq]
  omega

theorem isFinite_iff {x : Word} : isFinite x = true ↔ magnitude x < infMag := by
  have hlt : magnitude x < 2 ^ 31 := Nat.mod_lt _ (by decide)
  rw [isFinite, expField_eq, infMag, bne_iff_ne]
  omega

theorem natAbs_order (x : Word) : (order x).natAbs = magnitude x := by
  unfold order
  split <;> simp

theorem magnitude_withSign (neg : Bool) {mag : Nat} (h : mag < 2 ^ 31) : magnitude (withSign neg mag) = mag := by
  rw [magnitude, withSign, BitVec.toNat_ofNat]
  cases neg <;> simp only [Bool.false_eq_true, if_false, if_true] <;> omega

/-! The sign operation. -/

@[simp] theorem magnitude_fneg (x : Word) : magnitude (fneg x) = magnitude x := by
  rw [magnitude, fneg, BitVec.toNat_xor, Nat.xor_mod_two_pow]
  exact Nat.xor_zero _

@[simp] theorem order_fneg (x : Word) : order (fneg x) = -order x := by
  have hmsb : (fneg x).msb = !x.msb := by rw [fneg, BitVec.msb_xor]; exact Bool.xor_true _
  rw [order, order, hmsb, magnitude_fneg]
  cases x.msb <;> simp

theorem isNaN_fneg {x : Word} (h : isNaN x = false) : isNaN (fneg x) = false := by
  rwa [isNaN_eq_false_iff, magnitude_fneg, ← isNaN_eq_false_iff]

theorem isFinite_fneg {x : Word} (h : isFinite x = true) : isFinite (fneg x) = true := by
  rwa [isFinite_iff, magnitude_fneg, ← isFinite_iff]

/-! A rounding is a number or an infinity, and so is a sum of finite addends. -/

theorem isNaN_withSign (neg : Bool) {mag : Nat} (h : mag ≤ infMag) : isNaN (withSign neg mag) = false := by
  rw [isNaN_eq_false_iff, magnitude_withSign neg (lt_of_le_of_lt h (by decide))]
  exact h

theorem isNaN_round (neg : Bool) (m : Nat) (e : Int) : isNaN (round neg m e) = false := by
  refine isNaN_withSign neg ?_
  split
  · exact Nat.zero_le _
  · exact min_le_right _ _

theorem isNaN_sum {x y : Word} (bad : Word) (hx : isFinite x = true) (hy : isFinite y = true) :
    isNaN (sum bad x y) = false := by
  simp only [sum, isNaN_of_isFinite hx, isNaN_of_isFinite hy, isInf_of_isFinite hx, isInf_of_isFinite hy,
    Bool.or_false, Bool.false_eq_true, if_false]
  split
  · exact isNaN_withSign _ (Nat.zero_le _)
  · exact isNaN_round _ _ _

theorem isNaN_fadd {x y : Word} (hx : isFinite x = true) (hy : isFinite y = true) :
    isNaN (fadd x y) = false := isNaN_sum _ hx hy

theorem isNaN_fsub {x y : Word} (hx : isFinite x = true) (hy : isFinite y = true) :
    isNaN (fsub x y) = false := isNaN_sum _ hx (isFinite_fneg hy)

/-! The comparisons. -/

theorem fle_iff {x y : Word} : fle x y = true ↔ isNaN x = false ∧ isNaN y = false ∧ order x ≤ order y := by
  simp [fle, and_assoc]

theorem flt_iff {x y : Word} : flt x y = true ↔ isNaN x = false ∧ isNaN y = false ∧ order x < order y := by
  simp [flt, and_assoc]

theorem fle_refl {x : Word} (h : isNaN x = false) : fle x x = true := fle_iff.2 ⟨h, h, le_rfl⟩

/-- Among numbers, what is not below is at least. -/
theorem fle_of_flt_eq_false {x y : Word} (hx : isNaN x = false) (hy : isNaN y = false) (h : flt y x = false) :
    fle x y = true :=
  fle_iff.2 ⟨hx, hy, not_lt.1 fun hlt => Bool.eq_false_iff.1 h (flt_iff.2 ⟨hy, hx, hlt⟩)⟩

/-- A magnitude that is a number bounds a range about zero. -/
theorem fle_fneg_self {x : Word} (h : fle zeroF x = true) : fle (fneg x) x = true := by
  obtain ⟨-, hx, hle⟩ := fle_iff.1 h
  have hzero : order zeroF = 0 := by decide
  refine fle_iff.2 ⟨isNaN_fneg hx, hx, ?_⟩
  rw [order_fneg]
  omega

/-- A number between finite bounds is finite: the infinities lie outside. -/
theorem isFinite_of_fle {lo x hi : Word} (hlo : isFinite lo = true) (hhi : isFinite hi = true)
    (h : fle lo x = true ∧ fle x hi = true) : isFinite x = true := by
  obtain ⟨⟨-, -, hlx⟩, ⟨-, -, hxh⟩⟩ := h.imp fle_iff.1 fle_iff.1
  rw [isFinite_iff, ← natAbs_order] at hlo hhi ⊢
  omega

/-! The clamp between bounds that are numbers in order. -/

/-- A clamp is a NaN exactly where what it clamps is (log 1). -/
theorem isNaN_clamp {v lo hi : Word} (h : fle lo hi = true) : isNaN (clamp v lo hi) = isNaN v := by
  obtain ⟨hlo, hhi, -⟩ := fle_iff.1 h
  obtain ⟨hlt, hc⟩ | ⟨-, hgt, hc⟩ | ⟨-, -, hc⟩ := clamp_cases v lo hi
  · rw [hc, hlo, (flt_iff.1 hlt).1]
  · obtain ⟨-, hv, -⟩ := flt_iff.1 hgt
    rw [hc, hhi, hv]
  · rw [hc]

theorem clamp_mem {v lo hi : Word} (h : fle lo hi = true) (hv : isNaN v = false) :
    fle lo (clamp v lo hi) = true ∧ fle (clamp v lo hi) hi = true := by
  obtain ⟨hlo, hhi, -⟩ := fle_iff.1 h
  obtain ⟨-, hc⟩ | ⟨-, -, hc⟩ | ⟨hlt, hgt, hc⟩ := clamp_cases v lo hi
  · rw [hc]
    exact ⟨fle_refl hlo, h⟩
  · rw [hc]
    exact ⟨h, fle_refl hhi⟩
  · rw [hc]
    exact ⟨fle_of_flt_eq_false hlo hv hlt, fle_of_flt_eq_false hv hhi hgt⟩

end Sys2Proof.Machine.Num

/-! ### The PID controller (spec/43_pid.md R160 to R165) -/

namespace Sys2Proof.Machine

open Sys2Proof Host

/-! The operations where they are allowed (R85 step 2, R260). -/

section
variable {a : Axis} {s : State}

theorem exec_pidRun (h : s.hostInRun = false) : exec (.pidRun a) s = .next (pidRun a s) :=
  congrArg Outcome.next (ownerOnly_allowed _ h)

theorem exec_pidReset (h : s.hostInRun = false) :
    exec (.pidReset a) s = .next ((s.mapPid a pidCleared).respond .ok {}) :=
  congrArg Outcome.next (ownerOnly_allowed _ h)

end

/-! `PID.RESET` (R164). -/

theorem readAxisReg_pidCleared (x : AxisRegs) {a : Axis} {q : AxisReg} (h : .axis a q ∈ pidStateRegs a) :
    readAxisReg { x with pid := pidCleared x.pid } q = 0 := by
  cases q with
  | integralAccum | lastError | filtDeriv | lastTime | lastOutput | pidInit => rfl
  | _ => simp [pidStateRegs] at h

theorem readReg_mapPid_pidCleared (a : Axis) (s : State) {r : Reg} (h : r ∈ pidStateRegs a) :
    readReg (s.mapPid a pidCleared) r = 0 := by
  obtain ⟨q, rfl⟩ : ∃ q, r = .axis a q := by
    simp only [pidStateRegs, List.mem_cons, List.not_mem_nil, or_false] at h
    obtain rfl | rfl | rfl | rfl | rfl | rfl := h <;> exact ⟨_, rfl⟩
  simpa using readAxisReg_pidCleared (s.axis a) h

theorem Frame.mapPid_pidCleared (a : Axis) (s : State) :
    Frame { reg := pidStateRegs a } s (s.mapPid a pidCleared) := by
  refine .setAxis (fun q hq => ?_) (fun _ _ => rfl) (fun _ => ⟨rfl, rfl⟩)
  cases q with
  | integralAccum | lastError | filtDeriv | lastTime | lastOutput | pidInit => simp [pidStateRegs] at hq
  | _ => rfl

/-- Settles O44: one update, of the six registers of the controller's state, all of which read as 0 after it. -/
theorem pidResetReturnsToTheInitialState : Obligations.PidResetReturnsToTheInitialState := by
  intro a s h
  refine ⟨_, exec_pidReset h, ⟨rfl, rfl⟩, fun r hr => ?_, (Frame.mapPid_pidCleared a s).respond _ _⟩
  rw [readReg_respond, readReg_mapPid_pidCleared a s hr]

/-! The three cases of `PID.RUN` (R161 to R163). -/

/-- The error of a call of `PID.RUN` (R161). -/
def pidError (s : State) : Word := Num.fsub s.op.args.w1 s.op.args.w0

/-- The time since the last accepted call (R161). -/
def pidDt (a : Axis) (s : State) : Word := Num.fsub s.op.args.w2 (s.axis a).pid.lastTime

/-- The duty that an accepted call answers, from the registers `p` with the integral and the derivative of this
call in them (R160). -/
def pidOutput (s : State) (p : PidRegs) : Word := pidStage s.params.dbScale p (pidError s)

/-- The state after an accepted call: both the first call and the running-state rule latch and answer alike, and
differ only in the registers `p` they give the output stage (R161, R162). -/
def pidAccepted (a : Axis) (s : State) (p : PidRegs) : State :=
  (s.mapPid a fun _ => pidLatch p (pidError s) s.op.args.w2 (pidOutput s p)).respond .ok
    { w0 := pidOutput s p }

section
variable {a : Axis} {s : State}

theorem pidRun_of_first (h : (s.axis a).pid.pidInit = false) : pidRun a s = pidAccepted a s (s.axis a).pid :=
  if_pos (by rw [h]; rfl)

theorem pidRun_of_hold (h : (s.axis a).pid.pidInit = true) (hdt : Num.fgt (pidDt a s) zeroF = false) :
    pidRun a s = (s.raise (.dtHold a)).respond .hold { w0 := (s.axis a).pid.lastOutput } :=
  (if_neg (by rw [h]; decide)).trans (if_pos (by rw [← pidDt, hdt]; rfl))

theorem pidRun_of_running (h : (s.axis a).pid.pidInit = true) (hdt : Num.fgt (pidDt a s) zeroF = true) :
    pidRun a s = pidAccepted a s (pidUpdated (s.axis a).pid (pidError s) (pidDt a s)) :=
  (if_neg (by rw [h]; decide)).trans (if_neg (by rw [← pidDt, hdt]; decide))

/-- A call that answers `OK` was the first one, or one of the running state with its two updates done. -/
theorem pidRun_of_ok (h : (pidRun a s).op.status = .ok) :
    ((s.axis a).pid.pidInit = false ∧ pidRun a s = pidAccepted a s (s.axis a).pid) ∨
      ((s.axis a).pid.pidInit = true ∧
        pidRun a s = pidAccepted a s (pidUpdated (s.axis a).pid (pidError s) (pidDt a s))) := by
  cases hinit : (s.axis a).pid.pidInit with
  | false => exact .inl ⟨rfl, pidRun_of_first hinit⟩
  | true =>
    cases hdt : Num.fgt (pidDt a s) zeroF with
    | false => rw [pidRun_of_hold hinit hdt] at h; cases h
    | true => exact .inr ⟨rfl, pidRun_of_running hinit hdt⟩

end

theorem pidAccepted_answers (a : Axis) (s : State) (p : PidRegs) :
    Answers (pidAccepted a s p) .ok { w0 := pidOutput s p } := ⟨rfl, rfl⟩

@[simp] theorem pidAccepted_pid (a : Axis) (s : State) (p : PidRegs) :
    ((pidAccepted a s p).axis a).pid = pidLatch p (pidError s) s.op.args.w2 (pidOutput s p) := by
  simp [pidAccepted]

/-- In the running state `PID_INIT` is latched as it was. -/
theorem pidLatch_of_pidInit {p : PidRegs} (h : p.pidInit = true) {error now out dt : Word} :
    pidLatch (pidUpdated p error dt) error now out =
      { pidUpdated p error dt with lastError := error, lastTime := now, lastOutput := out } := by
  simp only [pidLatch, pidUpdated, h]

theorem pidAccepted_first_frame (a : Axis) (s : State) :
    Frame { reg := [.axis a .lastError, .axis a .lastTime, .axis a .lastOutput, .axis a .pidInit] } s
      (pidAccepted a s (s.axis a).pid) := by
  refine .respond _ _ (.setAxis (fun q hq => ?_) (fun _ _ => rfl) (fun _ => ⟨rfl, rfl⟩))
  cases q with
  | lastError | lastTime | lastOutput | pidInit => simp at hq
  | _ => rfl

theorem pidAccepted_running_frame {a : Axis} {s : State} (h : (s.axis a).pid.pidInit = true) (error dt : Word) :
    Frame { reg := [.axis a .integralAccum, .axis a .filtDeriv, .axis a .lastError, .axis a .lastTime,
                    .axis a .lastOutput] } s (pidAccepted a s (pidUpdated (s.axis a).pid error dt)) := by
  refine .respond _ _ (.setAxis (fun q hq => ?_) (fun _ _ => rfl) (fun _ => ⟨rfl, rfl⟩))
  cases q with
  | integralAccum | filtDeriv | lastError | lastTime | lastOutput => simp at hq
  | pidInit => simp only [readAxisReg, pidLatch, h]
  | _ => rfl

/-- Settles O42: the first call is an accepted call on the registers as they are; a hold is a raised flag and an
answer. -/
theorem pidFirstCallAndHold : Obligations.PidFirstCallAndHold := by
  intro a s h p error u off out
  constructor
  · intro hinit
    refine ⟨_, exec_pidRun h, ?_⟩
    rw [pidRun_of_first hinit]
    exact ⟨pidAccepted_answers a s p, pidAccepted_pid a s p, pidAccepted_first_frame a s⟩
  · intro hinit hdt
    refine ⟨_, exec_pidRun h, ?_⟩
    rw [pidRun_of_hold hinit hdt]
    exact ⟨⟨rfl, rfl⟩, flag_raise_self s _, (Frame.raise s _).respond _ _⟩

/-- Settles O43: an accepted call on the registers with the new integral and derivative. -/
theorem pidRunningUpdate : Obligations.PidRunningUpdate := by
  intro a s h p dt error i rd alpha d u off out hinit hdt
  refine ⟨_, exec_pidRun h, ?_⟩
  rw [pidRun_of_running hinit hdt]
  refine ⟨pidAccepted_answers a s _, ?_, pidAccepted_running_frame hinit _ _⟩
  rw [pidAccepted_pid, pidLatch_of_pidInit hinit]
  rfl

/-! The ranges (R165). -/

/-- The premises of R165 (a) on the limits and the deadband offset. -/
structure LimitsOk (dbScale : Word) (p : PidRegs) : Prop where
  low : Num.isFinite p.satLow = true
  high : Num.isFinite p.satHigh = true
  ordered : Num.fle p.satLow p.satHigh = true
  offset : Num.isFinite (Num.fmul p.deadbandPct dbScale) = true

/-- Each of the three outputs of the stage comes out of a clamp to the limits; the deadband offset is added to a
finite value, as the first clamp's answer lies between finite limits. -/
theorem pidStage_mem {dbScale error : Word} {p : PidRegs} (h : LimitsOk dbScale p)
    (hsum : Num.isNaN (Num.fadd (Num.fadd (Num.fmul p.kp error) (Num.fmul p.ki p.integralAccum))
      (Num.fmul p.kd p.filtDeriv)) = false) :
    Num.fle p.satLow (pidStage dbScale p error) = true ∧ Num.fle (pidStage dbScale p error) p.satHigh = true := by
  have hu : Num.fle p.satLow (pidClamped p error) = true ∧ Num.fle (pidClamped p error) p.satHigh = true :=
    Num.clamp_mem h.ordered hsum
  have hfin : Num.isFinite (pidClamped p error) = true := Num.isFinite_of_fle h.low h.high hu
  unfold pidStage
  dsimp only
  split
  case isTrue => exact Num.clamp_mem h.ordered (Num.isNaN_fadd hfin h.offset)
  case isFalse =>
    split
    case isTrue => exact Num.clamp_mem h.ordered (Num.isNaN_fsub hfin h.offset)
    case isFalse => exact hu

/-- R165 (a): the duty that is answered is the one that is latched, and the output stage's. -/
theorem pidAccepted_output_mem {a : Axis} {s : State} {p : PidRegs} (h : LimitsOk s.params.dbScale p)
    (hsum : Num.isNaN (Num.fadd (Num.fadd (Num.fmul p.kp (pidError s)) (Num.fmul p.ki p.integralAccum))
      (Num.fmul p.kd p.filtDeriv)) = false) :
    (pidAccepted a s p).op.res.w0 = ((pidAccepted a s p).axis a).pid.lastOutput ∧
      Num.fle p.satLow ((pidAccepted a s p).axis a).pid.lastOutput = true ∧
      Num.fle ((pidAccepted a s p).axis a).pid.lastOutput p.satHigh = true := by
  rw [pidAccepted_pid]
  exact ⟨rfl, pidStage_mem h hsum⟩

/-- R165 (b): the clamp of the integral is symmetric about zero. -/
theorem pidIntegral_mem {p : PidRegs} {error dt : Word} (hmax : Num.fle zeroF p.integralMax = true)
    (hnum : Num.isNaN (pidIntegral p error dt) = false) :
    Num.fle (Num.fneg p.integralMax) (pidIntegral p error dt) = true ∧
      Num.fle (pidIntegral p error dt) p.integralMax = true := by
  have hrange := Num.fle_fneg_self hmax
  rw [pidIntegral, Num.isNaN_clamp hrange] at hnum
  exact Num.clamp_mem hrange hnum

/-- Settles O45: an `OK` answer is the output stage's on the registers that are latched, and in the running state
the integral among them has just been clamped. -/
theorem pidOutputAndIntegralStayInRange : Obligations.PidOutputAndIntegralStayInRange := by
  intro a s t h hexec hstatus p q error
  obtain rfl : pidRun a s = t := Outcome.next.inj ((exec_pidRun h).symm.trans hexec)
  constructor
  · intro hlow hhigh hordered hoffset hsum
    obtain ⟨-, hrun⟩ | ⟨-, hrun⟩ := pidRun_of_ok hstatus
    all_goals
      simp only [q, hrun, pidAccepted_pid] at hsum
      simp only [q, hrun]
      exact pidAccepted_output_mem ⟨hlow, hhigh, hordered, hoffset⟩ hsum
  · intro hinit hmax hnum
    obtain ⟨hfirst, -⟩ | ⟨-, hrun⟩ := pidRun_of_ok hstatus
    · cases hfirst.symm.trans hinit
    · have hq : q.integralAccum = pidIntegral p (pidError s) (pidDt a s) := by
        simp only [q, hrun, pidAccepted_pid]
        rfl
      rw [hq] at hnum ⊢
      exact pidIntegral_mem hmax hnum

end Sys2Proof.Machine

/-! ### The slots and the command FIFO (spec/44_slot_fifo.md R180 to R186) -/

namespace Sys2Proof.Machine

open Sys2Proof Host

/-! The operations where they are allowed (R85 step 2, R260). -/

theorem exec_slotPut {k : Slot} {s : State} (h : s.hostInRun = false ∨ k = .homeReq) :
    exec (.slotPut k) s = .next (slotPut k s) := by
  have hexec : exec (.slotPut k) s = .next (if k = .homeReq then slotPut k s else s.ownerOnly (slotPut k)) := rfl
  rw [hexec]
  by_cases hk : k = .homeReq
  · rw [if_pos hk]
  · rw [if_neg hk, ownerOnly_allowed _ (h.resolve_right hk)]

theorem exec_slotGet (k : Slot) (s : State) :
    exec (.slotGet k) s = .next (s.respond .ok { w0 := (s.slot k).val, w1 := boolWord (s.slot k).valid }) := rfl

theorem exec_fifoPut (s : State) : exec .fifoPut s = .next (fifoPut s) := rfl

theorem exec_fifoGet {s : State} (h : s.hostInRun = false) : exec .fifoGet s = .next (fifoGet s) :=
  congrArg Outcome.next (ownerOnly_allowed _ h)

/-! `SLOT.PUT` and `SLOT.GET` (R181, R182). -/

/-- `HOME_REQ` is a bool: its put keeps bit 0 only. -/
theorem slotStored_homeReq (w : Word) : slotStored .homeReq w = if w.getLsbD 0 then 1 else 0 := rfl

theorem slotStored_of_ne {k : Slot} (h : k ≠ .homeReq) (w : Word) : slotStored k w = w := by
  cases k with
  | homeReq => exact absurd rfl h
  | _ => rfl

theorem slotPut_slot (k : Slot) (s : State) :
    (slotPut k s).slot k = { val := slotStored k s.op.args.w0, valid := true } := by
  simp [slotPut]

theorem Frame.setSlot (k : Slot) (c : SlotCell) (s : State) : Frame { reg := slotRegs k } s (s.setSlot k c) := by
  constructor
  case reg =>
    intro r _ hr
    simp only [slotRegs, List.mem_cons, List.not_mem_nil, or_false, not_or] at hr
    obtain ⟨hval, hvalid⟩ := hr
    cases r with
    | slotVal l => simpa using fun h => absurd (congrArg Reg.slotVal h) hval
    | slotValid l => simpa using fun h => absurd (congrArg Reg.slotValid h) hvalid
    | _ => simp
  all_goals simp

/-- Settles O46: a put is one update of the slot's cell, allowed to the host in run mode for `HOME_REQ` only; a get
is a response. -/
theorem slotsHoldTheLatestValue : Obligations.SlotsHoldTheLatestValue := by
  intro k s
  constructor
  · intro h
    refine ⟨_, exec_slotPut h, ⟨rfl, rfl⟩, ?_, fun hk => ?_, fun hk => ?_, (Frame.setSlot k _ s).respond _ _⟩
    · rw [slotPut_slot]
    · rw [slotPut_slot, slotStored_of_ne hk]
    · subst hk
      rw [slotPut_slot, slotStored_homeReq]
  · exact ⟨_, exec_slotGet k s, ⟨rfl, rfl⟩, (Frame.refl _ s).respond _ _⟩

/-! `FIFO.PUT` and `FIFO.GET` (R185, R186); `fifoPut_of_lt` and `fifoGet_of_cons` are their other cases. -/

theorem fifoPut_of_reject {s : State} (hfull : s.params.cmdFifoDepth ≤ s.fifo.length)
    (hpol : s.params.fullPolicy = .reject) : fifoPut s = s.reject .full (some .fifoFull) := by
  simp only [fifoPut, if_neg (not_lt.2 hfull), hpol]

theorem fifoPut_of_dropOldest {s : State} (hfull : s.params.cmdFifoDepth ≤ s.fifo.length)
    (hpol : s.params.fullPolicy = .dropOldest) :
    fifoPut s =
      ((s.raise .fifoFull).setFifo (s.fifo.drop 1 ++ [commandOf s.op.args])).respond .ok {} := by
  simp only [fifoPut, if_neg (not_lt.2 hfull), hpol, List.drop_one]

theorem fifoGet_of_nil {s : State} (h : s.fifo = []) : fifoGet s = s.reject .empty none := by
  simp only [fifoGet, h]

/-- Another queue is another count of its entries, and no other register reads differently (R41). -/
theorem Frame.setFifo {w : Writes} (hcount : .fifoCount ∈ w.reg) (hfifo : w.fifo = true) (s : State)
    (q : List Command) : Frame w s (s.setFifo q) := by
  constructor
  case reg =>
    intro r _ hr
    have hne : r ≠ .fifoCount := fun h => hr (h.symm ▸ hcount)
    rw [readReg_setFifo, if_neg hne]
  case fifo => simp [hfifo]
  all_goals simp

/-- The put that drops the oldest entry raises the flag and replaces the queue. -/
theorem Frame.raise_setFifo (s : State) (q : List Command) :
    Frame { reg := [.fifoCount], fifo := true, flag := [.fifoFull] } s ((s.raise .fifoFull).setFifo q) :=
  have hraise : Frame { reg := [.fifoCount], fifo := true, flag := [.fifoFull] } s (s.raise .fifoFull) :=
    (Frame.raise s .fifoFull).mono (by simp) (by simp) (by simp) (by simp) (by simp)
  hraise.trans (.setFifo (by simp) rfl _ q)

/-- Settles O47: a put by the room left and the policy, a get by the queue. -/
theorem fifoPutAndGet : Obligations.FifoPutAndGet := by
  intro s e
  refine ⟨?append, ?reject, ?dropOldest, ?empty, ?oldest⟩
  case append =>
    intro hroom
    refine ⟨_, exec_fifoPut s, ?_⟩
    rw [fifoPut_of_lt hroom]
    exact ⟨⟨rfl, rfl⟩, rfl, (Frame.setFifo (by simp) rfl s _).respond _ _⟩
  case reject =>
    intro hfull hpol
    refine ⟨_, exec_fifoPut s, ?_⟩
    rw [fifoPut_of_reject hfull hpol]
    exact reject_flag s .full .fifoFull
  case dropOldest =>
    intro hfull hpol
    refine ⟨_, exec_fifoPut s, ?_⟩
    rw [fifoPut_of_dropOldest hfull hpol]
    exact ⟨⟨rfl, rfl⟩, rfl, flag_raise_self s .fifoFull, (Frame.raise_setFifo s _).respond _ _⟩
  case empty =>
    intro hmode hempty
    refine ⟨_, exec_fifoGet hmode, ?_⟩
    rw [fifoGet_of_nil hempty]
    exact reject_none s .empty
  case oldest =>
    intro c q hmode hq
    refine ⟨_, exec_fifoGet hmode, ?_⟩
    rw [fifoGet_of_cons hq]
    exact ⟨⟨rfl, rfl⟩, rfl, (Frame.setFifo (by simp) rfl s q).respond _ _⟩

end Sys2Proof.Machine

/-! ### One segment at a time (spec/45_sched_tasks.md R214) -/

namespace Sys2Proof.Machine

open Sys2Proof Host

/-- R214 in run mode: `c` says that the body of `CTRL` in progress has fetched a command, `k` is its next step, and
`x` and `y` are the states of the generators of A and B. -/
structure Segment (c : Bool) (k : Nat) (x y : RampState) : Prop where
  allocatedA : x = .allocated → c = true ∧ 15 ≤ k ∧ k ≤ 20
  allocatedB : y = .allocated → c = true ∧ 18 ≤ k ∧ k ≤ 21
  unfetched  : c = true → ¬(1 ≤ k ∧ k ≤ 10)
  idleA      : c = true → 11 ≤ k → k ≤ 14 → x = .idle
  idleB      : c = true → 11 ≤ k → k ≤ 17 → y = .idle
  partnerOfA : c = true → 19 ≤ k → k ≤ 20 → x = .allocated → y = .allocated
  partnerOfB : c = true → k = 20 → y = .allocated → x = .allocated

/-- Task `CTRL` is ready and its body in progress has fetched a command. -/
def hasCommand (s : State) : Bool := (s.task .ctrl).ready && gCommand (s.task .ctrl).tmp

/-- What `State.oneSegment` says of a state in run mode. -/
def SegmentOf (s : State) : Prop :=
  Segment (hasCommand s) (s.task .ctrl).tstep.toNat (s.axis .A).ramp.state (s.axis .B).ramp.state

theorem settingUp_iff {s : State} {lo hi : Nat} : settingUp s lo hi = true ↔
    hasCommand s = true ∧ lo ≤ (s.task .ctrl).tstep.toNat ∧ (s.task .ctrl).tstep.toNat ≤ hi := by
  simp only [settingUp, hasCommand, Bool.and_eq_true, decide_eq_true_eq]
  tauto

theorem oneSegment_iff {s : State} : s.oneSegment = true ↔ (s.schedEn = true → SegmentOf s) := by
  simp only [State.oneSegment, Bool.or_eq_true, Bool.and_eq_true, Bool.not_eq_true', ← Bool.not_eq_true,
    settingUp_iff, gRamp_iff, SegmentOf]
  constructor
  · intro h hrun
    constructor <;> grind
  · intro h
    by_cases hrun : s.schedEn = true
    · obtain ⟨h1, h2, h3, h4, h5, h6, h7⟩ := h hrun
      grind
    · grind

/-- Where no generator is `ALLOCATED` and no command is held, nothing is left to say. -/
theorem Segment.of_no_command {k : Nat} {x y : RampState} (hx : x ≠ .allocated) (hy : y ≠ .allocated) :
    Segment false k x y := by
  constructor <;> simp [hx, hy]

theorem SegmentOf.not_allocated {s : State} (h : SegmentOf s) (hc : hasCommand s = false) (a : Axis) :
    (s.axis a).ramp.state ≠ .allocated := by
  rw [SegmentOf, hc] at h
  cases a with
  | A => exact fun hx => Bool.false_ne_true (h.allocatedA hx).1
  | B => exact fun hy => Bool.false_ne_true (h.allocatedB hy).1

theorem SegmentOf.congr {s t : State} (h : SegmentOf s) (htask : t.task .ctrl = s.task .ctrl)
    (hramp : ∀ a, (t.axis a).ramp.state = (s.axis a).ramp.state) : SegmentOf t := by
  rw [SegmentOf, hasCommand, htask, hramp, hramp]
  exact h

/-- A state in which `CTRL` has not begun a body, or is not ready, and no generator is `ALLOCATED`. -/
theorem segmentOf_of_not_begun {s : State} (hbegun : (s.task .ctrl).ready = true → (s.task .ctrl).tstep = 0)
    (halloc : ∀ a, (s.axis a).ramp.state ≠ .allocated) : SegmentOf s := by
  rw [SegmentOf]
  cases hc : hasCommand s with
  | false => exact .of_no_command (halloc .A) (halloc .B)
  | true =>
    simp only [hasCommand, Bool.and_eq_true] at hc
    rw [hbegun hc.1]
    constructor <;> simp [halloc]

/-! #### The generators under an operation of a task -/

/-- The state of the generator of axis `a` after an operation of a task, but for a `RAMP.INIT` that allocates
(spec/42_ramp.md R141 to R146). -/
def rampStateAfter (i : Instr) (a : Axis) (st : RampState) : RampState :=
  match i with
  | .rampRelease b => if a = b then .idle else st
  | .rampGen b => if a = b ∧ st = .allocated then .ready else st
  | _ => st

theorem rampStateAfter_of_ne {i : Instr} {a : Axis} {st : RampState} (hrel : i ≠ .rampRelease a)
    (hgen : i ≠ .rampGen a) : rampStateAfter i a st = st := by
  cases i with
  | rampRelease b | rampGen b =>
    have hb : a ≠ b := by rintro rfl; simp at hrel hgen
    simp [rampStateAfter, hb]
  | _ => rfl

theorem rampRelease_rampState (a b : Axis) (s : State) :
    ((rampRelease b s).axis a).ramp.state = rampStateAfter (.rampRelease b) a (s.axis a).ramp.state := by
  simp only [rampRelease, State.mapRamp, respond_axis, setAxis_axis, rampStateAfter]
  split <;> rfl

theorem rampGen_rampState (a b : Axis) (s : State) :
    ((rampGen b s).axis a).ramp.state = rampStateAfter (.rampGen b) a (s.axis a).ramp.state := by
  by_cases hab : a = b
  · subst hab
    cases hst : (s.axis a).ramp.state with
    | idle => rw [rampGen_of_idle hst]; simp [State.reject, rampStateAfter, hst]
    | allocated => rw [rampGen_of_allocated hst]; simp [rampStateAfter, filled]
    | ready => rw [rampGen_of_ready hst]; simp [State.reject, rampStateAfter, hst]
  · have hkeep : (rampGen b s).axis a = s.axis a := by
      unfold rampGen
      split <;> simp [State.reject, hab]
    rw [hkeep, rampStateAfter_of_ne (by simp) (by simpa using Ne.symm hab)]

/-- Of the operations of a task only those of a generator change its state. -/
theorem Effect.rampState_of_task {s x : State} {u : TaskId} {i : Instr} (h : Effect s i x)
    (hi : TaskIssues u i) (a : Axis) (hrel : i ≠ .rampRelease a) (hgen : i ≠ .rampGen a) :
    (x.axis a).ramp.state = (s.axis a).ramp.state ∨ (i = .rampInit a ∧ (x.axis a).ramp.state = .allocated) := by
  obtain rfl | ⟨g, -, rfl⟩ | ⟨b, y, hy, -, rfl⟩ | ⟨-, k, rfl⟩ | ⟨k, w, -, rfl⟩ | ⟨-, e, q, -, rfl⟩ :=
    h.task_cases hi
  case inr.inr.inl =>
    clear h
    by_cases hb : a = b
    · subst hb
      rw [setAxis_axis, if_pos rfl]
      cases hy with
      | ramp h =>
        cases h with
        | init => exact .inr ⟨rfl, rfl⟩
        | load | next => exact .inl rfl
        | gen => exact absurd rfl hgen
        | release => exact absurd rfl hrel
      | enc h | sw h | pid h | duty w => exact .inl rfl
    · rw [setAxis_axis, if_neg hb]
      exact .inl rfl
  all_goals simp

/-- The state of a generator after an operation of a task. -/
theorem exec_rampState {s t : State} {u : TaskId} {i : Instr} (h : exec i s = .next t) (hi : TaskIssues u i)
    (hrun : s.hostInRun = false) (a : Axis) :
    (t.axis a).ramp.state = rampStateAfter i a (s.axis a).ramp.state ∨
      (i = .rampInit a ∧ (t.axis a).ramp.state = .allocated) := by
  by_cases hrel : i = .rampRelease a
  · subst hrel
    obtain rfl : rampRelease a s = t := Outcome.next.inj ((exec_rampRelease hrun).symm.trans h)
    exact .inl (rampRelease_rampState a a s)
  by_cases hgen : i = .rampGen a
  · subst hgen
    obtain rfl : rampGen a s = t := Outcome.next.inj ((exec_rampGen hrun).symm.trans h)
    exact .inl (rampGen_rampState a a s)
  obtain ⟨x, st, r, hx, rfl⟩ := exec_effect h
  rw [rampStateAfter_of_ne hrel hgen, respond_axis]
  exact hx.rampState_of_task hi a hrel hgen

/-! #### A step of `CTRL` -/

/-- What step `k` of the body of `CTRL` makes of the command and of the two generators. -/
inductive SegmentMove (c : Bool) (x y : RampState) : Nat → Bool → RampState → RampState → Prop
  | begins : SegmentMove c x y 0 false x y
  | fetches (c' : Bool) (hx : x = .idle) (hy : y = .idle) : SegmentMove c x y 10 c' x y
  | sizesA (x' : RampState) (hc : c = true) : SegmentMove c x y 14 c x' y
  | sizesB (y' : RampState) (hc : c = true) : SegmentMove c x y 17 c x y'
  | dropsA : SegmentMove c x y 18 c (if c = true ∧ ¬(x = .allocated ∧ y = .allocated) then .idle else x) y
  | dropsB : SegmentMove c x y 19 c x (if c = true ∧ ¬(x = .allocated ∧ y = .allocated) then .idle else y)
  | fillsA : SegmentMove c x y 20 c (if c = true ∧ x = .allocated then .ready else x) y
  | fillsB : SegmentMove c x y 21 c x (if c = true ∧ y = .allocated then .ready else y)
  | passes {k : Nat} {x' y' : RampState} (hk : k ≠ 0 ∧ (k < 18 ∨ 21 < k)) (hx : x' = x ∨ x' = .idle)
      (hy : y' = y ∨ y' = .idle) : SegmentMove c x y k c x' y'

theorem Segment.move {c c' : Bool} {k : Nat} {x y x' y' : RampState} (h : Segment c k x y)
    (m : SegmentMove c x y k c' x' y') : Segment c' (k + 1) x' y' := by
  cases m with
  | begins => grind [Segment]
  | fetches c' hx hy => grind [Segment]
  | sizesA x' hc => grind [Segment]
  | sizesB y' hc => grind [Segment]
  | dropsA => grind [Segment]
  | dropsB => grind [Segment]
  | fillsA => grind [Segment]
  | fillsB => grind [Segment]
  | passes hk hx hy =>
    obtain ⟨hA, hB, hu, iA, iB, pA, pB⟩ := h
    constructor <;> grind

/-- `v` is the state that step `k` of the body of `CTRL` reaches from `s`, its index not yet moved (R203). -/
def CtrlReaches (s : State) (k : Nat) (v : State) : Prop :=
  ctrlStep s k = none ∧ v = s ∨
    ∃ o x, ctrlStep s k = some o ∧ exec o.instr (s.issue (.task .ctrl) o.args) = .next x ∧ v = ctrlPost k x

theorem ctrlPost_ramp (k : Nat) (s : State) (a : Axis) : ((ctrlPost k s).axis a).ramp = (s.axis a).ramp := by
  have hpost : ctrlPost k s = bodyPost .ctrl k s := rfl
  obtain h | ⟨f, h⟩ | ⟨-, b, w, h⟩ := bodyPost_cases .ctrl k s <;> rw [hpost, h]
  · simp
  · simp only [State.setSp, setAxis_axis]
    split
    case isTrue hb => rw [hb]
    case isFalse => rfl

/-- The temporaries `T0`, `T4` and `T7` are written at steps 0 and 10 only (R209). -/
theorem ctrlPost_gCommand {k : Nat} (h0 : k ≠ 0) (h10 : k ≠ 10) (s : State) :
    gCommand ((ctrlPost k s).task .ctrl).tmp = gCommand (s.task .ctrl).tmp := by
  unfold ctrlPost segmentTaken waypointTaken positionTaken dutyTaken
  dsimp only
  split <;> (try split) <;> simp_all [gCommand, gNormal]

theorem ctrlPost_zero_gCommand (s : State) : gCommand ((ctrlPost 0 s).task .ctrl).tmp = false := by
  simp [ctrlPost, gCommand]

/-- `RAMP.INIT` is issued at step 14 for A and at step 17 for B, to set up a fetched command. -/
theorem ctrlStep_rampInit {s : State} {k : Nat} {o : TaskOp} {a : Axis} (h : ctrlStep s k = some o)
    (hi : o.instr = .rampInit a) :
    gCommand (s.task .ctrl).tmp = true ∧ (a = .A ∧ k = 14 ∨ a = .B ∧ k = 17) := by
  simp only [ctrlStep] at h
  split at h <;>
    first
    | (cases h; done)
    | (obtain ⟨hg, rfl⟩ := guarded_some h
       cases hi
       simp_all)
    | (obtain ⟨-, rfl⟩ := guarded_some h
       cases hi)

/-- `RAMP.GEN` is issued at steps 20 and 21. -/
theorem ctrlStep_rampGen {s : State} {k : Nat} {o : TaskOp} {a : Axis} (h : ctrlStep s k = some o)
    (hi : o.instr = .rampGen a) : k = 20 ∨ k = 21 := by
  simp only [ctrlStep] at h
  split at h <;>
    first
    | (cases h; done)
    | (simp; done)
    | (obtain ⟨-, rfl⟩ := guarded_some h
       cases hi)

section
variable {s v : State} {k : Nat}

/-- An operation of `CTRL` leaves the temporaries to the post-action. -/
theorem CtrlReaches.gCommand_eq (h : CtrlReaches s k v) (h0 : k ≠ 0) (h10 : k ≠ 10) :
    gCommand (v.task .ctrl).tmp = gCommand (s.task .ctrl).tmp := by
  obtain ⟨-, rfl⟩ | ⟨o, y, ho, hy, rfl⟩ := h
  · rfl
  · obtain ⟨x, st, r, hx, rfl⟩ := exec_effect hy
    have htask := (hx.scheduler_of_task (bodyStep_issues (u := .ctrl) ho)).2
    rw [ctrlPost_gCommand h0 h10, respond_task, htask, issue_task]

theorem CtrlReaches.rampState (h : CtrlReaches s k v) (a : Axis) :
    (v.axis a).ramp.state = (s.axis a).ramp.state ∨
      ∃ o, ctrlStep s k = some o ∧
        ((v.axis a).ramp.state = rampStateAfter o.instr a (s.axis a).ramp.state ∨
          (o.instr = .rampInit a ∧ (v.axis a).ramp.state = .allocated)) := by
  obtain ⟨-, rfl⟩ | ⟨o, x, ho, hx, rfl⟩ := h
  · exact .inl rfl
  · refine .inr ⟨o, ho, ?_⟩
    rw [ctrlPost_ramp, ← issue_axis s (.task .ctrl) o.args a]
    exact exec_rampState hx (bodyStep_issues (u := .ctrl) ho) (issue_task_hostInRun _ _ _) a

/-- A step that issues another operation than `RAMP.INIT`, by its guard. -/
theorem CtrlReaches.rampState_of_guarded (h : CtrlReaches s k v) {g : Bool} {i : Instr}
    (hstep : ctrlStep s k = guarded g i) {a : Axis} (hi : i ≠ .rampInit a) :
    (v.axis a).ramp.state = if g then rampStateAfter i a (s.axis a).ramp.state else (s.axis a).ramp.state := by
  cases g with
  | false =>
    obtain ⟨-, rfl⟩ | ⟨o, x, ho, -⟩ := h
    · rfl
    · rw [hstep] at ho; cases ho
  | true =>
    obtain ⟨hn, -⟩ | ⟨o, x, ho, hx, rfl⟩ := h
    · rw [hstep] at hn; cases hn
    · obtain rfl := Option.some.inj (hstep.symm.trans ho)
      rw [ctrlPost_ramp, if_pos rfl, ← issue_axis s (.task .ctrl) {} a]
      refine (exec_rampState hx (bodyStep_issues (u := .ctrl) ho) (issue_task_hostInRun _ _ _) a).resolve_right ?_
      exact fun hinit => hi hinit.1

/-- A step that allocates nothing and generates nothing can only release. -/
theorem CtrlReaches.rampState_of_other (h : CtrlReaches s k v) (h20 : k ≠ 20) (h21 : k ≠ 21) {a : Axis}
    (hinit : ¬(gCommand (s.task .ctrl).tmp = true ∧ (a = .A ∧ k = 14 ∨ a = .B ∧ k = 17))) :
    (v.axis a).ramp.state = (s.axis a).ramp.state ∨ (v.axis a).ramp.state = .idle := by
  obtain hv | ⟨o, ho, hv | ⟨hi, -⟩⟩ := h.rampState a
  · exact .inl hv
  · by_cases hgen : o.instr = .rampGen a
    · exact absurd (ctrlStep_rampGen ho hgen) (by simp [h20, h21])
    by_cases hrel : o.instr = .rampRelease a
    · rw [hrel] at hv
      exact .inr (by simpa [rampStateAfter] using hv)
    · rw [rampStateAfter_of_ne hrel hgen] at hv
      exact .inl hv
  · exact absurd (ctrlStep_rampInit ho hi) hinit

theorem CtrlReaches.move_zero (h : CtrlReaches s 0 v) :
    SegmentMove (gCommand (s.task .ctrl).tmp) (s.axis .A).ramp.state (s.axis .B).ramp.state 0
      (gCommand (v.task .ctrl).tmp) (v.axis .A).ramp.state (v.axis .B).ramp.state := by
  have hA := h.rampState_of_guarded (i := .slotGet .homeReq) (a := .A) rfl (by simp)
  have hB := h.rampState_of_guarded (i := .slotGet .homeReq) (a := .B) rfl (by simp)
  have hc : gCommand (v.task .ctrl).tmp = false := by
    obtain ⟨hn, -⟩ | ⟨o, x, -, -, rfl⟩ := h
    · cases hn
    · exact ctrlPost_zero_gCommand x
  rw [hA, hB, hc]
  exact .begins

/-- Step 10 fetches with both generators `IDLE` only (R212). -/
theorem CtrlReaches.move_ten (h : CtrlReaches s 10 v) :
    SegmentMove (gCommand (s.task .ctrl).tmp) (s.axis .A).ramp.state (s.axis .B).ramp.state 10
      (gCommand (v.task .ctrl).tmp) (v.axis .A).ramp.state (v.axis .B).ramp.state := by
  have hA := h.rampState_of_guarded (i := .fifoGet) (a := .A) rfl (by simp)
  have hB := h.rampState_of_guarded (i := .fifoGet) (a := .B) rfl (by simp)
  simp only [rampStateAfter, ite_self] at hA hB
  rw [hA, hB]
  obtain ⟨-, rfl⟩ | ⟨o, x, ho, -⟩ := h
  · exact .passes (by simp) (.inl rfl) (.inl rfl)
  · obtain ⟨hg, -⟩ := guarded_some ho
    simp only [Bool.and_eq_true, gRamp_iff] at hg
    obtain ⟨⟨-, hidleA⟩, hidleB⟩ := hg
    exact .fetches _ hidleA hidleB

/-- Steps 18 and 19 drop a segment that is not allocated on both axes, steps 20 and 21 generate it (R213). -/
theorem CtrlReaches.move_decides (h : CtrlReaches s k v) (hk : k = 18 ∨ k = 19 ∨ k = 20 ∨ k = 21) :
    SegmentMove (gCommand (s.task .ctrl).tmp) (s.axis .A).ramp.state (s.axis .B).ramp.state k
      (gCommand (v.task .ctrl).tmp) (v.axis .A).ramp.state (v.axis .B).ramp.state := by
  rw [h.gCommand_eq (by omega) (by omega)]
  obtain rfl | rfl | rfl | rfl := hk
  · have hA := h.rampState_of_guarded (i := .rampRelease .A) (a := .A) rfl (by simp)
    have hB := h.rampState_of_guarded (i := .rampRelease .A) (a := .B) rfl (by simp)
    rw [hA, hB]
    convert SegmentMove.dropsA using 1 <;> grind [rampStateAfter, gBoth, gRamp]
  · have hA := h.rampState_of_guarded (i := .rampRelease .B) (a := .A) rfl (by simp)
    have hB := h.rampState_of_guarded (i := .rampRelease .B) (a := .B) rfl (by simp)
    rw [hA, hB]
    convert SegmentMove.dropsB using 1 <;> grind [rampStateAfter, gBoth, gRamp]
  · have hA := h.rampState_of_guarded (i := .rampGen .A) (a := .A) rfl (by simp)
    have hB := h.rampState_of_guarded (i := .rampGen .A) (a := .B) rfl (by simp)
    rw [hA, hB]
    convert SegmentMove.fillsA using 1 <;> grind [rampStateAfter, gBoth, gRamp]
  · have hA := h.rampState_of_guarded (i := .rampGen .B) (a := .A) rfl (by simp)
    have hB := h.rampState_of_guarded (i := .rampGen .B) (a := .B) rfl (by simp)
    rw [hA, hB]
    convert SegmentMove.fillsB using 1 <;> grind [rampStateAfter, gBoth, gRamp]

/-- Every step of the body of `CTRL` makes one of the moves. -/
theorem CtrlReaches.move (h : CtrlReaches s k v) :
    SegmentMove (gCommand (s.task .ctrl).tmp) (s.axis .A).ramp.state (s.axis .B).ramp.state k
      (gCommand (v.task .ctrl).tmp) (v.axis .A).ramp.state (v.axis .B).ramp.state := by
  by_cases h0 : k = 0
  · subst h0; exact h.move_zero
  by_cases h10 : k = 10
  · subst h10; exact h.move_ten
  by_cases hdec : k = 18 ∨ k = 19 ∨ k = 20 ∨ k = 21
  · exact h.move_decides hdec
  rw [h.gCommand_eq h0 h10]
  by_cases h14 : gCommand (s.task .ctrl).tmp = true ∧ k = 14
  · obtain ⟨hc, rfl⟩ := h14
    have hB := h.rampState_of_guarded (i := .rampInit .A) (a := .B) rfl (by simp)
    simp only [rampStateAfter, ite_self] at hB
    rw [hB]
    exact .sizesA _ hc
  by_cases h17 : gCommand (s.task .ctrl).tmp = true ∧ k = 17
  · obtain ⟨hc, rfl⟩ := h17
    have hA := h.rampState_of_guarded (i := .rampInit .B) (a := .A) rfl (by simp)
    simp only [rampStateAfter, ite_self] at hA
    rw [hA]
    exact .sizesB _ hc
  · refine .passes (by omega) ?_ ?_
    all_goals exact h.rampState_of_other (by omega) (by omega) (by grind)

end

/-- The end of a step moves the index on, or ends the body, after which no generator is `ALLOCATED` (R203). -/
theorem Segment.finishStep {v : State} {k : Nat} (hk : k < 256) (hready : (v.task .ctrl).ready = true)
    (h : Segment (gCommand (v.task .ctrl).tmp) (k + 1) (v.axis .A).ramp.state (v.axis .B).ramp.state) :
    SegmentOf (finishStep .ctrl k v) := by
  have eaxis := (finishStep_rest .ctrl k v).axis
  have halloc (hlast : 21 ≤ k) (a : Axis) : (v.axis a).ramp.state ≠ .allocated := by
    intro ha
    cases a with
    | A => have := h.allocatedA ha; omega
    | B => have := h.allocatedB ha; omega
  by_cases hlast : k + 1 = bodyLen .ctrl ∨ k = 255
  · refine segmentOf_of_not_begun ?_ fun a => by rw [eaxis]; exact halloc (by simp only [bodyLen] at hlast; omega) a
    rw [finishStep_task, if_pos rfl]
    split
    case isTrue => simp
    case isFalse hne => obtain rfl : k = 255 := hlast.resolve_left hne; simp
  · rw [not_or] at hlast
    have hmod : (k + 1) % 256 = k + 1 := Nat.mod_eq_of_lt (by omega)
    rw [SegmentOf, hasCommand, eaxis, eaxis, finishStep_task, if_pos rfl, if_neg hlast.1]
    simpa [hready, hmod] using h

/-- A step of `CTRL` (R203), from the state in which its event has been taken. -/
theorem segmentOf_ctrlStep {s t : State} (hs : SegmentOf s) (hready : (s.task .ctrl).ready = true)
    (h : let k := (s.task .ctrl).tstep.toNat
      bodyStep .ctrl s k = none ∧ t = finishStep .ctrl k s ∨
        ∃ o x, bodyStep .ctrl s k = some o ∧ exec o.instr (s.issue (.task .ctrl) o.args) = .next x ∧
          t = finishStep .ctrl k (bodyPost .ctrl k x)) : SegmentOf t := by
  have hk : (s.task .ctrl).tstep.toNat < 256 := (s.task .ctrl).tstep.isLt
  have hmove {v : State} (hv : CtrlReaches s (s.task .ctrl).tstep.toNat v) (hvr : (v.task .ctrl).ready = true) :
      SegmentOf (finishStep .ctrl (s.task .ctrl).tstep.toNat v) := by
    refine Segment.finishStep hk hvr (Segment.move ?_ hv.move)
    rw [SegmentOf, hasCommand, hready, Bool.true_and] at hs
    exact hs
  obtain ⟨hn, rfl⟩ | ⟨o, x, ho, hx, rfl⟩ := h
  · exact hmove (.inl ⟨hn, rfl⟩) hready
  · refine hmove (.inr ⟨o, x, ho, hx, rfl⟩) ?_
    obtain ⟨y, st, r, hy, rfl⟩ := exec_effect hx
    have hpost := (bodyPost_scheduler .ctrl (s.task .ctrl).tstep.toNat (y.respond st r)).2
    have htask := (hy.scheduler_of_task (bodyStep_issues ho)).2
    exact hpost.trans (by simpa [htask] using hready)

/-! #### The other events -/

/-- A step of a task leaves the registers of the others (R206). -/
theorem taskStep_task_of_ne {s t : State} {u v : TaskId} (he : nextEvent s = .taskStep)
    (hu : runningTask s = some u) (h : step s = .next t) (hv : v ≠ u) : t.task v = s.task v := by
  have hpost (k : Nat) (x : State) : (bodyPost u k x).task v = x.task v := by
    obtain hp | ⟨f, hp⟩ | ⟨-, a, w, hp⟩ := bodyPost_cases u k x <;> rw [hp] <;> simp [hv]
  obtain ⟨-, -, -, -, -, -, -, -, -, etask, -, -⟩ := takeEvent_fields s
  obtain rfl | ⟨o, x, st, r, ho, hx, rfl⟩ := taskStep_cases he hu h
  · rw [finishStep_task, if_neg hv, etask]
  · have htask := (hx.scheduler_of_task (bodyStep_issues ho)).2
    rw [finishStep_task, if_neg hv, hpost, respond_task, htask, issue_task, etask]

theorem rampStateWord_inj {x y : RampState} (h : rampStateWord x = rampStateWord y) : x = y := by
  revert h
  cases x <;> cases y <;> decide

/-- The generators are the control task's (R206). -/
theorem taskStep_rampState_of_ne {s t : State} {u : TaskId} (he : nextEvent s = .taskStep)
    (hu : runningTask s = some u) (h : step s = .next t) (hc : u ≠ .ctrl) (a : Axis) :
    (t.axis a).ramp.state = ((takeEvent s).axis a).ramp.state := by
  have hown : ownsReg u (.axis a .rampState) = false := by simp [ownsReg, ownsAxisReg, axisRegIsCfg, hc]
  exact rampStateWord_inj ((taskStep_writesOwn he hu h).reg _ hown)

/-- In run mode the operations that are reserved to a task are denied to the host (R85 step 2, R260). -/
theorem exec_of_host_in_run {s : State} {i : Instr} {u : TaskId} (hrun : s.hostInRun = true)
    (hi : opOwner i = some u) : exec i s = .next s.rejectDenied := by
  cases i with
  | encRead a | encZero a | encPos a | encDpos a | swRestart a | swLap a | kinUpdate | kinReset | kinSeg a
  | rampLoad a | rampInit a | rampGen a | rampNext a | rampRelease a | pidRun a | pidReset a | fifoGet
  | motOut a => exact congrArg Outcome.next (ownerOnly_denied _ hrun)
  | slotPut k =>
    cases k with
    | homeReq => cases hi
    | pos a | vel a | dt a | duty a => exact congrArg Outcome.next (ownerOnly_denied _ hrun)
  | _ => cases hi

theorem writeCfgReg_schedEn (s : State) (r : Reg) (v : Word) : (writeCfgReg s r v).schedEn = s.schedEn := by
  unfold writeCfgReg
  split <;> simp

/-- The operations that are left to the host in run mode, and all of them in configuration mode, of which
`SYS.START` refuses while a generator is `ALLOCATED` (R232). -/
theorem Effect.segmentOf_of_host {s x : State} {i : Instr} (h : Effect s i x) (hhost : s.hostInRun = s.schedEn)
    (hi : s.schedEn = true → opOwner i = none) (hs : s.schedEn = true → SegmentOf s) (hx : x.schedEn = true) :
    SegmentOf x := by
  cases h with
  | keeps => exact hs hx
  | axis hy =>
    obtain ⟨u, hu⟩ := hy.exists_owner
    rw [hi (by simpa using hx)] at hu
    cases hu
  | start hmode hok =>
    simp only [startRefused, Bool.or_eq_false_iff, beq_eq_false_iff_ne] at hok
    obtain ⟨⟨-, hA⟩, hB⟩ := hok
    refine segmentOf_of_not_begun (fun _ => by simp [foldl_startTask_task]) fun a => ?_
    cases a <;> simpa [(foldl_startTask_rest _).axis]
  | reset => cases hx
  | stop => simp [(foldl_stopTask_rest _).schedEn] at hx
  | config hrun =>
    have hmode : s.schedEn = false := hhost.symm.trans hrun
    rw [writeCfgReg_schedEn, hmode] at hx
    cases hx
  | clrfault =>
    refine (hs (by simpa [State.leaveFault] using hx)).congr (by simp [State.leaveFault]) fun a => ?_
    rw [leaveFault_axis]
  | fault =>
    exact (hs (by simpa [State.enterFault] using hx)).congr (by simp [State.enterFault])
      (by simp [State.enterFault])
  | _ => exact (hs (by simpa using hx)).congr (by simp) (by simp)

theorem oneSegment_of_host {s t : State} {i : Instr} (h : exec i s = .next t) (hhost : s.hostInRun = s.schedEn)
    (hs : s.schedEn = true → SegmentOf s) (ht : t.schedEn = true) : SegmentOf t := by
  have heffect (hi : s.schedEn = true → opOwner i = none) : SegmentOf t := by
    obtain ⟨x, st, r, hx, rfl⟩ := exec_effect h
    exact (hx.segmentOf_of_host hhost hi hs ht).congr (by simp) (by simp)
  cases hrun : s.schedEn with
  | false => exact heffect (by simp [hrun])
  | true =>
    cases ho : opOwner i with
    | none => exact heffect fun _ => ho
    | some u =>
      obtain rfl := Outcome.next.inj ((exec_of_host_in_run (hhost.trans hrun) ho).symm.trans h)
      exact (hs hrun).congr (by simp [State.rejectDenied, State.reject]) (by simp [State.rejectDenied, State.reject])

theorem tickEvent_schedEn (s : State) : (tickEvent s).schedEn = s.schedEn := by
  unfold tickEvent
  split
  · exact (foldl_tickTask_rest taskList _).2.1
  · rfl

/-- A TICK releases `CTRL` at the start of its body (R201), which it has left with no generator `ALLOCATED`. -/
theorem SegmentOf.tickEvent {s : State} (h : SegmentOf s) : SegmentOf (tickEvent s) := by
  unfold Machine.tickEvent
  split
  case isFalse => exact h
  case isTrue =>
    obtain ⟨-, -, -, -, eaxis, -⟩ := foldl_tickTask_rest taskList (s.setTime (s.schedTime + 1))
    have htask := foldl_tickTask_task (s.setTime (s.schedTime + 1)) .ctrl
    rw [tickTask_task, setTime_task] at htask
    split at htask
    case isFalse => exact h.congr htask fun a => by rw [eaxis, setTime_axis]
    case isTrue =>
      split at htask
      case isTrue =>
        rw [SegmentOf, hasCommand, htask, eaxis, eaxis]
        exact h
      case isFalse hready =>
        refine segmentOf_of_not_begun (fun _ => by rw [htask]) fun a => ?_
        rw [eaxis, setTime_axis]
        exact h.not_allocated (by simp [hasCommand, hready]) a

theorem SegmentOf.takeEvent {s : State} (h : SegmentOf s) : SegmentOf (takeEvent s) := by
  obtain ⟨-, -, -, -, -, -, -, -, -, etask, eaxis, -⟩ := takeEvent_fields s
  exact h.congr (etask .ctrl) fun a => by rw [eaxis]

/-- Settles O59, by the events of R204; the moves of `CTRL` are those of `SegmentMove`. -/
theorem oneSegmentIsKept : Obligations.OneSegmentIsKept := by
  intro s t hs h
  rw [oneSegment_iff] at hs ⊢
  intro ht
  obtain ⟨-, emode, -, -, -, -, -, -, -, etask, -, -⟩ := takeEvent_fields s
  have h₁ (hm : (takeEvent s).schedEn = true) : SegmentOf (takeEvent s) := (hs (emode ▸ hm)).takeEvent
  obtain ⟨-, rfl⟩ | ⟨-, rfl⟩ | ⟨p, -, rfl⟩ | ⟨w, args, why, -, -, rfl⟩ | ⟨w, args, i, -, -, hx⟩ | ⟨-, -, rfl⟩ |
    ⟨he, u, hu, hstep⟩ := step_cases h
  · cases ht
  · exact (h₁ ((tickEvent_schedEn _).symm.trans ht)).tickEvent
  · exact (h₁ ht).congr (by simp) (by simp)
  · exact (h₁ ht).congr (by simp [State.rejectIllegal, State.reject]) (by simp [State.rejectIllegal, State.reject])
  · exact oneSegment_of_host hx (issue_host_hostInRun _ _)
      (fun hm => (h₁ hm).congr (by simp) (by simp)) ht
  · exact h₁ ht
  · obtain ⟨hmode, hready⟩ := runningTask_some hu
    by_cases hc : u = .ctrl
    · subst hc
      exact segmentOf_ctrlStep (h₁ hmode) hready hstep
    · have hu' := (runningTask_takeEvent s).symm.trans hu
      have htask : t.task .ctrl = (takeEvent s).task .ctrl := by
        rw [taskStep_task_of_ne he hu' h (Ne.symm hc), etask]
      exact (h₁ hmode).congr htask (taskStep_rampState_of_ne he hu' h hc)

end Sys2Proof.Machine

/-! ### The scheduler: TICK, the running task, its step (spec/45_sched_tasks.md R201 to R205, R218) -/

namespace Sys2Proof.Machine

open Sys2Proof Host

theorem exec_motOut {a : Axis} {s : State} (h : s.hostInRun = false) : exec (.motOut a) s = .next (motOut a s) :=
  congrArg Outcome.next (ownerOnly_allowed _ h)

theorem Frame.driveDuty (a : Axis) (s : State) (w : Word) : Frame { duty := [a] } s (s.driveDuty a w) := by
  refine .setAxis (fun q _ => ?_) (fun _ _ => rfl) (fun h => absurd (List.mem_singleton_self a) h)
  cases q <;> rfl

/-- Settles O49: one update of the output and its strobe, which taking the next event ends. -/
theorem motorOutputDrivesThePattern : Obligations.MotorOutputDrivesThePattern := by
  constructor
  · intro a s h
    exact ⟨_, exec_motOut h, ⟨rfl, rfl⟩, by simp [motOut], by simp [motOut], (Frame.driveDuty a s _).respond _ _⟩
  · intro s a
    obtain ⟨-, -, -, -, -, -, -, -, -, -, eaxis, -⟩ := takeEvent_fields s
    rw [eaxis]
    exact ⟨rfl, rfl⟩

/-! #### The step of the running task (R203) -/

/-- An update of one task's registers that leaves its `PERIOD` and its `WAKE`. -/
theorem Frame.setTask {w : Writes} {s : State} {u : TaskId} {x : TaskRegs} (hreg : .tstat u ∈ w.reg)
    (hperiod : x.period = (s.task u).period) (hwake : .wake u ∈ w.reg ∨ x.wake = (s.task u).wake)
    (htmp : u ∈ w.tmp ∨ x.tmp = (s.task u).tmp) : Frame w s (s.setTask u x) := by
  constructor
  case reg =>
    intro r _ hr
    cases r with
    | period v => by_cases hv : v = u <;> simp_all [readReg]
    | wake v => by_cases hv : v = u <;> simp_all [readReg]
    | tstat v =>
      have hv : v ≠ u := by rintro rfl; exact hr hreg
      simp [hv]
    | _ => simp
  case tmp =>
    intro v hv
    by_cases hvu : v = u <;> simp_all
  all_goals simp

theorem finishStep_frame (u : TaskId) (k : Nat) (s : State) : Frame { reg := [.tstat u] } s (finishStep u k s) := by
  unfold finishStep
  split <;> exact .setTask (by simp) rfl (.inr rfl) (.inr rfl)

theorem taskTransaction_of_none {u : TaskId} {k : Nat} {s : State} (h : bodyStep u s k = none) :
    taskTransaction u k s = .next (finishStep u k s) := by
  simp only [taskTransaction, h]

theorem taskTransaction_of_some {u : TaskId} {k : Nat} {s x : State} {o : TaskOp} (h : bodyStep u s k = some o)
    (hx : exec o.instr (s.issue (.task u) o.args) = .next x) :
    taskTransaction u k s = .next (finishStep u k (bodyPost u k x)) := by
  simp only [taskTransaction, h, hx]

/-- Settles O7: the transaction of the running task ends, whatever its guard, in the end of the step. -/
theorem taskEventRunsTheGuardedStep : Obligations.TaskEventRunsTheGuardedStep := by
  intro s rest u hp hu k s₁
  have hstep : step s = taskTransaction u k s₁ := step_taskStep hp hu
  have hend (v : State) (hv : step s = .next (finishStep u k v)) :
      ∃ t, step s = .next t ∧
        (k + 1 = bodyLen u → (t.task u).ready = false ∧ (t.task u).tstep = 0) ∧
        (k + 1 ≠ bodyLen u → (t.task u).ready = (v.task u).ready ∧ (t.task u).tstep = BitVec.ofNat 8 (k + 1)) ∧
        Frame { reg := [.tstat u] } v t ∧ t.op = v.op := by
    refine ⟨_, hv, fun hlast => ?_, fun hlast => ?_, finishStep_frame u k v, (finishStep_rest u k v).op⟩
    · rw [finishStep_task, if_pos rfl, if_pos hlast]
      exact ⟨rfl, rfl⟩
    · rw [finishStep_task, if_pos rfl, if_neg hlast]
      exact ⟨rfl, rfl⟩
  cases hb : bodyStep u s₁ k with
  | none =>
    exact ⟨s₁, fun _ => rfl, by simp, hend s₁ (hstep.trans (taskTransaction_of_none hb))⟩
  | some o =>
    obtain ⟨x, hx, -⟩ := exec_performs o.instr (s₁.issue (.task u) o.args)
    refine ⟨bodyPost u k x, by simp, fun o' ho' => ?_, hend _ (hstep.trans (taskTransaction_of_some hb hx))⟩
    obtain rfl : o = o' := Option.some.inj ho'
    exact ⟨x, hx, rfl⟩

/-! #### The running task (R202) -/

theorem runningTask_iff {s : State} {u : TaskId} : runningTask s = some u ↔
    s.schedEn = true ∧ (s.task u).ready = true ∧ ∀ v, taskNum v < taskNum u → (s.task v).ready = false := by
  unfold runningTask
  cases s.schedEn with
  | false => simp
  | true =>
    revert u
    rw [forall_task]
    simp only [forall_task, taskList, taskNum, axisNum, List.find?_cons, List.find?_nil]
    cases (s.task (.enc .A)).ready <;> cases (s.task (.enc .B)).ready <;> cases (s.task .ctrl).ready <;>
      cases (s.task (.mot .A)).ready <;> cases (s.task (.mot .B)).ready <;> simp

/-- A task step that is offered where no task is running changes nothing (log 5). -/
theorem step_taskStep_of_none {s : State} {rest : List Event} (hp : s.pending = .taskStep :: rest)
    (hu : runningTask s = none) : step s = .next (afterTaking s rest) := by
  rw [← runningTask_takeEvent, takeEvent_of_pending hp] at hu
  simp only [step, stepEvent, nextEvent_of_pending hp, takeEvent_of_pending hp, applyEvent, taskStepEvent, hu]

/-- Settles O51: the first ready task of the list of the tasks, which stands in the order of their indices. -/
theorem onlyTheFirstReadyTaskSteps : Obligations.OnlyTheFirstReadyTaskSteps := fun _ =>
  ⟨fun _ => runningTask_iff,
    fun _ _ _ hp hu h _ hv => taskStep_task_of_ne (nextEvent_of_pending hp) hu h hv,
    fun _ hp hu => step_taskStep_of_none hp hu⟩

/-! #### TICK (R201, R205) -/

theorem step_tick {s : State} {rest : List Event} (hp : s.pending = .tick :: rest) :
    step s = .next (tickEvent (afterTaking s rest)) := by
  rw [step, stepEvent, nextEvent_of_pending hp, takeEvent_of_pending hp, applyEvent]

theorem tickTask_schedTime (s : State) (u : TaskId) : (tickTask s u).schedTime = s.schedTime := by
  obtain ⟨-, -, -, -, etime, -⟩ := tickTask_rest s u
  exact etime

/-- A task records the overrun of its own release only (R205). -/
theorem tickTask_flag (s : State) (t : TaskId) (g : Flag) :
    (tickTask s t).flag g =
      (s.flag g || decide (g = .overrun t ∧ s.schedTime = (s.task t).wake ∧ (s.task t).ready = true)) := by
  obtain ⟨-, -, -, eflags, -⟩ := tickTask_rest s t
  rw [State.flag, eflags]
  split
  case isTrue h =>
    have hraise := flag_raise s (.overrun t) g
    rw [State.flag, State.raise, setFlags_flags] at hraise
    simp [hraise, h]
  case isFalse h => simp [h, State.flag]

theorem foldl_tickTask_overrun (s : State) (u : TaskId) :
    (taskList.foldl tickTask s).flag (.overrun u) = (tickTask s u).flag (.overrun u) := by
  revert u
  rw [forall_task]
  simp [taskList, tickTask_flag, tickTask_task, tickTask_schedTime]

theorem tickTask_frame (s : State) (t : TaskId) :
    Frame { reg := [.wake t, .tstat t], flag := [.overrun t] } s (tickTask s t) := by
  have hdue (x : TaskRegs) (hx : x.period = (s.task t).period) (htmp : x.tmp = (s.task t).tmp) :
      Frame { reg := [.wake t, .tstat t], flag := [.overrun t] } s (s.setTask t x) :=
    .setTask (by simp) hx (.inl (by simp)) (.inr htmp)
  unfold tickTask
  dsimp only
  split
  case isFalse => exact .refl _ s
  case isTrue =>
    split
    case isTrue =>
      have hraise (x : State) : Frame { reg := [.wake t, .tstat t], flag := [.overrun t] } x (x.raise (.overrun t)) :=
        (Frame.raise x _).mono (by simp) (by simp) (by simp) (by simp) (by simp)
      refine Frame.trans (hdue _ ?_ ?_) (hraise _) <;> rfl
    case isFalse =>
      rw [setTask_setTask]
      exact hdue _ (by simp) (by simp)

/-- Frames of steps over a list of tasks, each listed in one frame of them all. -/
theorem Frame.foldl {w : Writes} {f : State → TaskId → State} {l : List TaskId}
    (hf : ∀ u ∈ l, ∀ s, Frame w s (f s u)) (s : State) : Frame w s (l.foldl f s) := by
  induction l generalizing s with
  | nil => exact .refl w s
  | cons u l ih =>
    exact (hf u (by simp) s).trans (ih (fun v hv => hf v (List.mem_cons_of_mem u hv)) _)

theorem Frame.setTime (s : State) (v : Word) : Frame { reg := [.schedTime] } s (s.setTime v) := by
  constructor
  case reg => intro r _ hr; simp [show r ≠ .schedTime by simpa using hr]
  all_goals simp

theorem tickEvent_frame (s : State) :
    Frame { reg := .schedTime :: (taskList.map .wake ++ taskList.map .tstat), flag := taskList.map .overrun } s
      (tickEvent s) := by
  unfold tickEvent
  split
  case isFalse => exact .refl _ s
  case isTrue =>
    refine ((Frame.setTime s _).mono (by simp) (by simp) (by simp) (by simp) (by simp)).trans
      (.foldl (fun u hu x => ?_) _)
    exact (tickTask_frame x u).mono (by simp [hu]) (by simp [hu]) (by simp) (by simp) (by simp)

@[simp] theorem afterTaking_task (s : State) (l : List Event) (u : TaskId) :
    (afterTaking s l).task u = s.task u := by simp [afterTaking]

@[simp] theorem afterTaking_flag (s : State) (l : List Event) (g : Flag) :
    (afterTaking s l).flag g = s.flag g := by simp [afterTaking, State.flag]

/-- Settles O50: at a TICK in run mode `SCHED_TIME` moves, and each task is looked at once at the new time. -/
theorem tickReleasesTheDueTasks : Obligations.TickReleasesTheDueTasks := by
  intro s rest hp
  rw [step_tick hp]
  constructor
  · intro hmode
    rw [tickEvent, if_neg (by simp [hmode])]
  · intro hmode
    have hs₁ : tickEvent (afterTaking s rest) =
        taskList.foldl tickTask ((afterTaking s rest).setTime (s.schedTime + 1)) := if_pos hmode
    generalize s.schedTime + 1 = now at hs₁ ⊢
    obtain ⟨-, -, etime, -⟩ := foldl_tickTask_rest taskList ((afterTaking s rest).setTime now)
    have hflag (w : Word) (g : Flag) : ((afterTaking s rest).setTime w).flag g = s.flag g := afterTaking_flag s rest g
    refine ⟨_, rfl, ?_, fun u hu => ?_, fun u hu => ?_, tickEvent_frame _⟩
    · rw [hs₁, etime, setTime_schedTime]
    all_goals
      rw [hs₁, foldl_tickTask_task, foldl_tickTask_overrun, tickTask_task, tickTask_flag]
    · simp [hflag, hu]
    · cases hready : (s.task u).ready <;> simp [hflag, hu, hready]

end Sys2Proof.Machine

/-! ### Undisturbed bodies of the tasks (spec/45_sched_tasks.md R203, R207, R209, R217)

A body is followed on a plain state, in which the operations of the task have their effect and nothing else happens;
`State.inBody` puts the bookkeeping of the body in progress back onto it. -/

namespace Sys2Proof.Machine

open Sys2Proof Host

/-- The registers of a task inside a body, or at its end: step `k` is next and the temporaries are `T`. -/
def bodyRegs (u : TaskId) (k : Nat) (T : Temps) (r : TaskRegs) : TaskRegs :=
  { r with ready := decide (k < bodyLen u), tstep := if k < bodyLen u then BitVec.ofNat 8 k else 0, tmp := T }

/-- Replace the transaction on the operation port. -/
def State.setOp (s : State) (o : OpPort) : State := { s with op := o }

/-- The state `x` inside a body of task `u`: the registers of `u` are `bodyRegs`, the events `p` are pending and `o`
is on the operation port. -/
def State.inBody (x : State) (u : TaskId) (k : Nat) (T : Temps) (p : List Event) (o : OpPort) : State :=
  ((x.setTask u (bodyRegs u k T (x.task u))).setPending p).setOp o

section
variable (x : State) (u : TaskId) (k : Nat) (T : Temps) (p : List Event) (o : OpPort)

@[simp] theorem inBody_params : (x.inBody u k T p o).params = x.params := setTask_params x u _
@[simp] theorem inBody_schedEn : (x.inBody u k T p o).schedEn = x.schedEn := setTask_schedEn x u _
@[simp] theorem inBody_fault : (x.inBody u k T p o).fault = x.fault := setTask_fault x u _
@[simp] theorem inBody_flags : (x.inBody u k T p o).flags = x.flags := setTask_flags x u _
@[simp] theorem inBody_kin : (x.inBody u k T p o).kin = x.kin := setTask_kin x u _
@[simp] theorem inBody_fifo : (x.inBody u k T p o).fifo = x.fifo := setTask_fifo x u _
@[simp] theorem inBody_ports : (x.inBody u k T p o).ports = x.ports := setTask_ports x u _
@[simp] theorem inBody_op : (x.inBody u k T p o).op = o := rfl
@[simp] theorem inBody_pending : (x.inBody u k T p o).pending = p := rfl
@[simp] theorem inBody_axis (a : Axis) : (x.inBody u k T p o).axis a = x.axis a := by
  cases a <;> rcases u with (_ | _) | _ | (_ | _) <;> rfl
@[simp] theorem inBody_slot (l : Slot) : (x.inBody u k T p o).slot l = x.slot l := by
  rcases l with (_ | _) | (_ | _) | (_ | _) | _ | (_ | _) <;> rcases u with (_ | _) | _ | (_ | _) <;> rfl
@[simp] theorem inBody_portEnc (a : Axis) : (x.inBody u k T p o).portEnc a = x.portEnc a := by
  cases a <;> rcases u with (_ | _) | _ | (_ | _) <;> rfl
@[simp] theorem inBody_portSw (a : Axis) : (x.inBody u k T p o).portSw a = x.portSw a := by
  cases a <;> rcases u with (_ | _) | _ | (_ | _) <;> rfl

theorem inBody_task (v : TaskId) :
    (x.inBody u k T p o).task v = if v = u then bodyRegs u k T (x.task u) else x.task v := setTask_task x u v _

@[simp] theorem inBody_tmp : ((x.inBody u k T p o).task u).tmp = T := by simp [inBody_task, bodyRegs]

/-! #### The updates of the state are the same inside a body -/

variable {x u k T p o}

@[simp] theorem inBody_setAxis (a : Axis) (r : AxisRegs) :
    (x.inBody u k T p o).setAxis a r = (x.setAxis a r).inBody u k T p o := by
  cases a <;> rcases u with (_ | _) | _ | (_ | _) <;> rfl

@[simp] theorem inBody_setSlot (l : Slot) (c : SlotCell) :
    (x.inBody u k T p o).setSlot l c = (x.setSlot l c).inBody u k T p o := by
  rcases l with (_ | _) | (_ | _) | (_ | _) | _ | (_ | _) <;> rcases u with (_ | _) | _ | (_ | _) <;> rfl

@[simp] theorem inBody_setKin (c : KinRegs) : (x.inBody u k T p o).setKin c = (x.setKin c).inBody u k T p o := by
  rcases u with (_ | _) | _ | (_ | _) <;> rfl

@[simp] theorem inBody_setFifo (q : List Command) :
    (x.inBody u k T p o).setFifo q = (x.setFifo q).inBody u k T p o := by
  rcases u with (_ | _) | _ | (_ | _) <;> rfl

@[simp] theorem inBody_setFlags (f : Half) : (x.inBody u k T p o).setFlags f = (x.setFlags f).inBody u k T p o := by
  rcases u with (_ | _) | _ | (_ | _) <;> rfl

@[simp] theorem inBody_mapTmp (f : Temps → Temps) : (x.inBody u k T p o).mapTmp u f = x.inBody u k (f T) p o := by
  rcases u with (_ | _) | _ | (_ | _) <;> rfl

theorem inBody_setPending (q : List Event) : (x.inBody u k T p o).setPending q = x.inBody u k T q o := rfl

@[simp] theorem inBody_respond (st : Status) (r : Words5) :
    (x.inBody u k T p o).respond st r = x.inBody u k T p { o with status := st, res := r } := rfl

@[simp] theorem inBody_issue (who : Agent) (args : Words5) :
    (x.inBody u k T p o).issue who args = x.inBody u k T p { o with issuer := who, args := args } := rfl

/-! The operation port of the plain state is not seen. -/

@[simp] theorem respond_inBody (st : Status) (r : Words5) : (x.respond st r).inBody u k T p o = x.inBody u k T p o := by
  rcases u with (_ | _) | _ | (_ | _) <;> rfl

@[simp] theorem issue_inBody (who : Agent) (args : Words5) :
    (x.issue who args).inBody u k T p o = x.inBody u k T p o := by
  rcases u with (_ | _) | _ | (_ | _) <;> rfl

/-! Updates made on the operation port's taking of a transaction. -/

@[simp] theorem issue_setAxis (who : Agent) (args : Words5) (a : Axis) (r : AxisRegs) :
    (x.issue who args).setAxis a r = (x.setAxis a r).issue who args := by cases a <;> rfl

@[simp] theorem issue_setSlot (who : Agent) (args : Words5) (l : Slot) (c : SlotCell) :
    (x.issue who args).setSlot l c = (x.setSlot l c).issue who args := by
  rcases l with (_ | _) | (_ | _) | (_ | _) | _ | (_ | _) <;> rfl

@[simp] theorem issue_setKin (who : Agent) (args : Words5) (c : KinRegs) :
    (x.issue who args).setKin c = (x.setKin c).issue who args := rfl

@[simp] theorem issue_setFifo (who : Agent) (args : Words5) (q : List Command) :
    (x.issue who args).setFifo q = (x.setFifo q).issue who args := rfl

@[simp] theorem issue_setFlags (who : Agent) (args : Words5) (f : Half) :
    (x.issue who args).setFlags f = (x.setFlags f).issue who args := rfl

/-- The end of a step moves the index on (R203). -/
theorem finishStep_inBody (h : k < bodyLen u) :
    finishStep u k (x.inBody u k T p o) = x.inBody u (k + 1) T p o := by
  have hset (r : TaskRegs) : (x.inBody u k T p o).setTask u r = ((x.setTask u r).setPending p).setOp o := by
    rcases u with (_ | _) | _ | (_ | _) <;> rfl
  unfold finishStep
  rw [hset, hset, inBody_task, if_pos rfl]
  split
  case isTrue hlast => simp [State.inBody, bodyRegs, hlast]
  case isFalse hlast => simp [State.inBody, bodyRegs, h, show k + 1 < bodyLen u by omega]

end

/-! #### The operations of a task have the same effect inside a body -/

/-- The state after task `u` issues an operation; the same state where it is not a next state, which no operation
gives (`exec_taskOp`). For `CTRL` it is `runOp`. -/
def taskOp (u : TaskId) (i : Instr) (args : Words5) (s : State) : State :=
  match exec i (s.issue (.task u) args) with
  | .next t => t
  | .fault _ => s
  | .refused _ => s

theorem taskOp_of_next {u : TaskId} {i : Instr} {args : Words5} {s t : State}
    (h : exec i (s.issue (.task u) args) = .next t) : taskOp u i args s = t := by
  simp only [taskOp, h]

theorem exec_taskOp (u : TaskId) (i : Instr) (args : Words5) (s : State) :
    exec i (s.issue (.task u) args) = .next (taskOp u i args s) := by
  obtain ⟨t, h, -⟩ := exec_performs i (s.issue (.task u) args)
  rw [taskOp_of_next h, h]

theorem runOp_eq_taskOp (i : Instr) (args : Words5) (s : State) : runOp i args s = taskOp .ctrl i args s := rfl

/-- `f` does to a plain state what it does inside a body. -/
def BodyBlind (f : State → State) : Prop :=
  ∀ (x : State) (u v : TaskId) (k : Nat) (T : Temps) (p : List Event) (o : OpPort) (args : Words5),
    f ((x.inBody u k T p o).issue (.task v) args) =
      (f (x.issue (.task v) args)).inBody u k T p (f (x.issue (.task v) args)).op

theorem bodyBlind_encRead (a : Axis) : BodyBlind (encRead a) := by
  intro x u v k T p o args
  simp [encRead]

theorem bodyBlind_kinSeg (a : Axis) : BodyBlind (kinSeg a) := by
  intro x u v k T p o args
  simp only [kinSeg, State.reject]
  split_ifs <;> simp_all

theorem bodyBlind_rampLoad (a : Axis) : BodyBlind (rampLoad a) := by
  intro x u v k T p o args
  simp only [rampLoad, State.reject]
  split_ifs <;> simp_all

theorem bodyBlind_rampInit (a : Axis) : BodyBlind (rampInit a) := by
  intro x u v k T p o args
  simp only [rampInit, State.reject, issue_axis, inBody_axis, issue_params, inBody_params]
  split_ifs
  · simp
  · split
    · simp
    · split_ifs <;> simp

theorem bodyBlind_rampGen (a : Axis) : BodyBlind (rampGen a) := by
  intro x u v k T p o args
  simp only [rampGen, State.reject, issue_axis, inBody_axis]
  split <;> simp

theorem bodyBlind_rampNext (a : Axis) : BodyBlind (rampNext a) := by
  intro x u v k T p o args
  simp only [rampNext, State.reject, issue_axis, inBody_axis]
  split_ifs <;> simp

theorem bodyBlind_pidRun (a : Axis) : BodyBlind (pidRun a) := by
  intro x u v k T p o args
  simp only [pidRun, issue_axis, inBody_axis, issue_op]
  split_ifs <;> simp

theorem bodyBlind_fifoGet : BodyBlind fifoGet := by
  intro x u v k T p o args
  simp only [fifoGet, State.reject, issue_fifo, inBody_fifo]
  split <;> simp

theorem taskOp_inBody_of_blind {i : Instr} {f : State → State}
    (hf : ∀ {s : State}, s.hostInRun = false → exec i s = .next (f s)) (h : BodyBlind f)
    (x : State) (u : TaskId) (k : Nat) (T : Temps) (p : List Event) (o : OpPort) (args : Words5) :
    taskOp u i args (x.inBody u k T p o) = (taskOp u i args x).inBody u k T p (taskOp u i args x).op := by
  rw [taskOp_of_next (hf (issue_task_hostInRun _ u args)), taskOp_of_next (hf (issue_task_hostInRun _ u args)), h]

/-- An operation of a task has the same effect and the same answer inside a body as on the plain state. -/
theorem taskOp_inBody {i : Instr} {v : TaskId} (hi : TaskIssues v i) (x : State) (u : TaskId) (k : Nat) (T : Temps)
    (p : List Event) (o : OpPort) (args : Words5) :
    taskOp u i args (x.inBody u k T p o) = (taskOp u i args x).inBody u k T p (taskOp u i args x).op := by
  cases i with
  | encRead a => exact taskOp_inBody_of_blind exec_encRead (bodyBlind_encRead a) ..
  | encZero a => exact taskOp_inBody_of_blind exec_encZero (fun _ _ _ _ _ _ _ _ => by simp) ..
  | encPos a => exact taskOp_inBody_of_blind exec_encPos (fun _ _ _ _ _ _ _ _ => by simp) ..
  | encDpos a => exact taskOp_inBody_of_blind exec_encDpos (fun _ _ _ _ _ _ _ _ => by simp) ..
  | swRestart a => exact taskOp_inBody_of_blind exec_swRestart (fun _ _ _ _ _ _ _ _ => by simp) ..
  | swLap a => exact taskOp_inBody_of_blind exec_swLap (fun _ _ _ _ _ _ _ _ => by simp [swLap]) ..
  | kinUpdate => exact taskOp_inBody_of_blind exec_kinUpdate (fun _ _ _ _ _ _ _ _ => by simp [kinUpdate]) ..
  | kinReset => exact taskOp_inBody_of_blind exec_kinReset (fun _ _ _ _ _ _ _ _ => by simp) ..
  | kinSeg a => exact taskOp_inBody_of_blind exec_kinSeg (bodyBlind_kinSeg a) ..
  | rampLoad a => exact taskOp_inBody_of_blind exec_rampLoad (bodyBlind_rampLoad a) ..
  | rampInit a => exact taskOp_inBody_of_blind exec_rampInit (bodyBlind_rampInit a) ..
  | rampGen a => exact taskOp_inBody_of_blind exec_rampGen (bodyBlind_rampGen a) ..
  | rampNext a => exact taskOp_inBody_of_blind exec_rampNext (bodyBlind_rampNext a) ..
  | rampRelease a => exact taskOp_inBody_of_blind exec_rampRelease (fun _ _ _ _ _ _ _ _ => by simp [rampRelease]) ..
  | pidRun a => exact taskOp_inBody_of_blind exec_pidRun (bodyBlind_pidRun a) ..
  | pidReset a => exact taskOp_inBody_of_blind exec_pidReset (fun _ _ _ _ _ _ _ _ => by simp) ..
  | slotPut l =>
    exact taskOp_inBody_of_blind (fun h => exec_slotPut (.inl h)) (fun _ _ _ _ _ _ _ _ => by simp [slotPut]) ..
  | slotGet l => exact taskOp_inBody_of_blind (fun _ => exec_slotGet l _) (fun _ _ _ _ _ _ _ _ => by simp) ..
  | fifoGet => exact taskOp_inBody_of_blind exec_fifoGet bodyBlind_fifoGet ..
  | motOut a => exact taskOp_inBody_of_blind exec_motOut (fun _ _ _ _ _ _ _ _ => by simp [motOut]) ..
  | _ => simp [TaskIssues, opOwner] at hi

/-! #### Steps of an undisturbed body -/

/-- Task `u` is the first ready task where it is ready, in run mode, and the strobes have ended. -/
structure Undisturbed (u : TaskId) (x : State) : Prop where
  mode  : x.schedEn = true
  first : ∀ v, taskNum v < taskNum u → (x.task v).ready = false
  quiet : ∀ a, (x.axis a).dutyStb = false

/-- The events of the steps of a body from step `k` on. -/
def stepsLeft (u : TaskId) (k : Nat) : List Event := List.replicate (bodyLen u - k) .taskStep

theorem stepsLeft_of_lt {u : TaskId} {k : Nat} (h : k < bodyLen u) :
    stepsLeft u k = .taskStep :: stepsLeft u (k + 1) := by
  rw [stepsLeft, stepsLeft, ← List.replicate_succ]
  congr 1
  omega

theorem setAxis_self (s : State) (a : Axis) : s.setAxis a (s.axis a) = s := by cases a <;> rfl

theorem endStrobe_of_quiet {s : State} {a : Axis} (h : (s.axis a).dutyStb = false) : s.endStrobe a = s := by
  rw [State.endStrobe, ← h]
  exact setAxis_self s a

theorem afterTaking_of_quiet {s : State} (h : ∀ a, (s.axis a).dutyStb = false) (rest : List Event) :
    afterTaking s rest = s.setPending rest := by
  rw [afterTaking, endStrobe_of_quiet (a := .A) (by simpa using h .A), endStrobe_of_quiet (by simpa using h .B)]

section
variable {u : TaskId} {x : State} {k : Nat} {T : Temps} {p : List Event} {o : OpPort}

theorem Undisturbed.runningTask_inBody (h : Undisturbed u x) (hk : k < bodyLen u) :
    runningTask (x.inBody u k T p o) = some u := by
  refine runningTask_iff.2 ⟨by simpa using h.mode, by simp [inBody_task, bodyRegs, hk], fun v hv => ?_⟩
  rw [inBody_task, if_neg (by rintro rfl; omega)]
  exact h.first v hv

/-- A step of a body is the transaction of its task on the state that has the other steps pending. -/
theorem Undisturbed.step_inBody (h : Undisturbed u x) (hk : k < bodyLen u) :
    step (x.inBody u k T (stepsLeft u k ++ p) o) =
      taskTransaction u k (x.inBody u k T (stepsLeft u (k + 1) ++ p) o) := by
  have hlen := bodyLen_lt u
  have hpend : (x.inBody u k T (stepsLeft u k ++ p) o).pending = .taskStep :: (stepsLeft u (k + 1) ++ p) := by
    rw [inBody_pending, stepsLeft_of_lt hk, List.cons_append]
  have hindex : ((x.inBody u k T (stepsLeft u k ++ p) o).task u).tstep.toNat = k := by
    simp [inBody_task, bodyRegs, hk, Nat.mod_eq_of_lt (show k < 256 by omega)]
  rw [step_taskStep hpend (h.runningTask_inBody hk), hindex, afterTaking_of_quiet (by simpa using h.quiet),
    inBody_setPending]

theorem Undisturbed.step_of_none (h : Undisturbed u x) (hk : k < bodyLen u)
    (hb : ∀ p o, bodyStep u (x.inBody u k T p o) k = none) :
    step (x.inBody u k T (stepsLeft u k ++ p) o) = .next (x.inBody u (k + 1) T (stepsLeft u (k + 1) ++ p) o) := by
  rw [h.step_inBody hk, taskTransaction_of_none (hb _ _), finishStep_inBody hk]

theorem Undisturbed.step_of_some (h : Undisturbed u x) (hk : k < bodyLen u) {i : Instr} {args : Words5} {y : State}
    {T' : Temps} {o' : OpPort} (hb : ∀ p o, bodyStep u (x.inBody u k T p o) k = some { instr := i, args := args })
    (hpost : ∀ p, bodyPost u k ((taskOp u i args x).inBody u k T p (taskOp u i args x).op) = y.inBody u k T' p o') :
    step (x.inBody u k T (stepsLeft u k ++ p) o) = .next (y.inBody u (k + 1) T' (stepsLeft u (k + 1) ++ p) o') := by
  have hi : TaskIssues u i := bodyStep_issues (hb p o)
  rw [h.step_inBody hk, taskTransaction_of_some (hb _ _) (exec_taskOp u i args _), taskOp_inBody hi, hpost,
    finishStep_inBody hk]

end

/-- What no step of an undisturbed body changes, but the last one of a motor task. -/
structure Keeps (x y : State) : Prop where
  schedEn : y.schedEn = x.schedEn
  fault   : y.fault = x.fault
  ports   : y.ports = x.ports
  pending : y.pending = x.pending
  task    : ∀ v, y.task v = x.task v
  strobe  : ∀ a, (y.axis a).dutyStb = (x.axis a).dutyStb

theorem Keeps.refl (x : State) : Keeps x x := ⟨rfl, rfl, rfl, rfl, fun _ => rfl, fun _ => rfl⟩

theorem Keeps.trans {x y z : State} (h : Keeps x y) (k : Keeps y z) : Keeps x z :=
  ⟨k.schedEn.trans h.schedEn, k.fault.trans h.fault, k.ports.trans h.ports, k.pending.trans h.pending,
    fun v => (k.task v).trans (h.task v), fun a => (k.strobe a).trans (h.strobe a)⟩

theorem Keeps.undisturbed {u : TaskId} {x y : State} (h : Keeps x y) (hx : Undisturbed u x) : Undisturbed u y :=
  ⟨h.schedEn.trans hx.mode, fun v hv => by rw [h.task]; exact hx.first v hv,
    fun a => (h.strobe a).trans (hx.quiet a)⟩

theorem Keeps.setAxis {x : State} {a : Axis} {r : AxisRegs} (hr : r.dutyStb = (x.axis a).dutyStb) :
    Keeps x (x.setAxis a r) := by
  constructor
  case strobe =>
    intro b
    rw [setAxis_axis]
    split
    case isTrue hb => rw [hb, hr]
    case isFalse => rfl
  all_goals simp

theorem taskOp_keeps {u : TaskId} {i : Instr} (hi : TaskIssues u i) (hm : ∀ a, i ≠ .motOut a) (args : Words5)
    (x : State) : Keeps x (taskOp u i args x) := by
  have hissue : Keeps x (x.issue (.task u) args) := by constructor <;> simp
  have hrespond (y : State) (st : Status) (r : Words5) : Keeps y (y.respond st r) := by constructor <;> simp
  obtain ⟨y, st, r, hy, he⟩ := exec_effect (exec_taskOp u i args x)
  rw [he]
  refine hissue.trans (Keeps.trans ?_ (hrespond y st r))
  obtain rfl | ⟨g, -, rfl⟩ | ⟨a, z, hz, -, rfl⟩ | ⟨-, c, rfl⟩ | ⟨l, w, -, rfl⟩ | ⟨-, e, q, -, rfl⟩ := hy.task_cases hi
  · exact .refl _
  · constructor <;> simp
  · refine .setAxis ?_
    cases hz with
    | duty w => exact absurd rfl (hm a)
    | enc h | sw h | pid h | ramp h => rfl
  · constructor <;> simp
  · constructor <;> simp
  · constructor <;> simp

/-- From step `k` on, with plain state `x` and temporaries `T`, `n` steps of an undisturbed body of task `u` lead to
the plain state `y` and the temporaries `T'`. -/
structure BodyRun (u : TaskId) (k n : Nat) (x : State) (T : Temps) (y : State) (T' : Temps) : Prop where
  keeps : Keeps x y
  run   : Undisturbed u x → ∀ p o, ∃ o',
    runSteps n (x.inBody u k T (stepsLeft u k ++ p) o) = .next (y.inBody u (k + n) T' (stepsLeft u (k + n) ++ p) o')

section
variable {u : TaskId} {x y z : State} {k n m : Nat} {T T' T'' : Temps}

theorem BodyRun.refl (u : TaskId) (k : Nat) (x : State) (T : Temps) : BodyRun u k 0 x T x T :=
  ⟨.refl x, fun _ _ o => ⟨o, rfl⟩⟩

theorem BodyRun.trans (h : BodyRun u k n x T y T') (h' : BodyRun u (k + n) m y T' z T'') :
    BodyRun u k (n + m) x T z T'' := by
  refine ⟨h.keeps.trans h'.keeps, fun hx p o => ?_⟩
  obtain ⟨o₁, h₁⟩ := h.run hx p o
  obtain ⟨o₂, h₂⟩ := h'.run (h.keeps.undisturbed hx) p o₁
  refine ⟨o₂, ?_⟩
  rw [runSteps_add n m h₁, h₂, Nat.add_assoc]

/-- A step whose guard is false (R203). -/
theorem BodyRun.skip (hk : k < bodyLen u) (hb : ∀ p o, bodyStep u (x.inBody u k T p o) k = none) :
    BodyRun u k 1 x T x T :=
  ⟨.refl x, fun hx _ o => ⟨o, runSteps_succ 0 (hx.step_of_none hk hb)⟩⟩

/-- A step whose guard is true (R203). -/
theorem BodyRun.op {i : Instr} {args : Words5} {o' : OpPort} (hk : k < bodyLen u)
    (hb : ∀ p o, bodyStep u (x.inBody u k T p o) k = some { instr := i, args := args })
    (hpost : ∀ p, bodyPost u k ((taskOp u i args x).inBody u k T p (taskOp u i args x).op) = y.inBody u k T' p o')
    (hkeeps : Keeps x y) : BodyRun u k 1 x T y T' :=
  ⟨hkeeps, fun hx _ _ => ⟨o', runSteps_succ 0 (hx.step_of_some hk hb hpost)⟩⟩

/-- A row of steps whose guards are false. -/
theorem BodyRun.skips (n : Nat) (hk : k + n ≤ bodyLen u)
    (hb : ∀ j p o, k ≤ j → j < k + n → bodyStep u (x.inBody u j T p o) j = none) : BodyRun u k n x T x T := by
  induction n with
  | zero => exact .refl u k x T
  | succ n ih =>
    refine (ih (by omega) fun j p o hlo hhi => hb j p o hlo (by omega)).trans (.skip (by omega) fun p o => ?_)
    exact hb _ p o (by omega) (by omega)

end

end Sys2Proof.Machine

namespace Sys2Proof.Machine

open Sys2Proof Host

/-! #### The first step and the end of a body -/

@[simp] theorem afterTaking_axis (s : State) (l : List Event) (a : Axis) :
    (afterTaking s l).axis a = { s.axis a with dutyStb := false } := by cases a <;> rfl

@[simp] theorem afterTaking_slot (s : State) (l : List Event) (k : Slot) :
    (afterTaking s l).slot k = s.slot k := by simp [afterTaking]

theorem setTask_self (s : State) (u : TaskId) : s.setTask u (s.task u) = s := by
  rcases u with (_ | _) | _ | (_ | _) <;> rfl

theorem readReg_setOp (s : State) (o : OpPort) (r : Reg) : readReg (s.setOp o) r = readReg s r := by
  cases r <;> rfl

/-- A frame does not speak of the operation port. -/
theorem Frame.setOp {w : Writes} {s t : State} (h : Frame w s t) (o : OpPort) : Frame w s (t.setOp o) := by
  obtain ⟨hreg, hflag, htmp, hfifo, hduty, hparams, hports, hpending, henv⟩ := h
  exact ⟨fun r h1 h2 => (readReg_setOp t o r).trans (hreg r h1 h2), hflag, htmp, hfifo, hduty, hparams, hports,
    hpending, henv⟩

/-- A body writes the status of its task and its temporaries beside the effect of its operations. -/
theorem inBody_frame (y : State) (u : TaskId) (k : Nat) (T : Temps) (o : OpPort) :
    Frame { reg := [.tstat u], tmp := [u] } y (y.inBody u k T y.pending o) := by
  have hset : Frame { reg := [.tstat u], tmp := [u] } y (y.setTask u (bodyRegs u k T (y.task u))) :=
    .setTask (by simp) rfl (.inr rfl) (.inl (by simp))
  have hpend : (y.setTask u (bodyRegs u k T (y.task u))).setPending y.pending =
      y.setTask u (bodyRegs u k T (y.task u)) := by
    rcases u with (_ | _) | _ | (_ | _) <;> rfl
  rw [State.inBody, hpend]
  exact hset.setOp o

section
variable {s : State} {u : TaskId} {rest : List Event}

/-- A task that starts its body is inside it. -/
theorem afterTaking_eq_inBody (hready : (s.task u).ready = true) (h0 : (s.task u).tstep = 0) (q : List Event) :
    afterTaking s q = (afterTaking s rest).inBody u 0 (s.task u).tmp q s.op := by
  have hregs : bodyRegs u 0 (s.task u).tmp (s.task u) = s.task u := by
    rw [bodyRegs, if_pos (bodyLen_pos u), decide_eq_true (bodyLen_pos u), ← hready]
    change { s.task u with tstep := 0 } = s.task u
    rw [← h0]
  rw [State.inBody, afterTaking_task, hregs, ← afterTaking_task s rest u, setTask_self]
  rfl

theorem undisturbed_afterTaking (hu : runningTask s = some u) : Undisturbed u (afterTaking s rest) := by
  obtain ⟨hmode, -, hfirst⟩ := runningTask_iff.1 hu
  exact ⟨hmode, fun v hv => by rw [afterTaking_task]; exact hfirst v hv, fun a => by cases a <;> rfl⟩

/-- A run of a body from the state in which its task starts it. -/
theorem BodyRun.start {n : Nat} {y : State} {T : Temps}
    (h : BodyRun u 0 (n + 1) (afterTaking s rest) (s.task u).tmp y T) (hu : runningTask s = some u)
    (h0 : (s.task u).tstep = 0) (hp : s.pending = List.replicate (bodyLen u) .taskStep ++ rest) :
    ∃ o, runSteps (n + 1) s = .next (y.inBody u (n + 1) T (stepsLeft u (n + 1) ++ rest) o) := by
  have hx : Undisturbed u (afterTaking s rest) := undisturbed_afterTaking hu
  obtain ⟨-, hready, -⟩ := runningTask_iff.1 hu
  have hpend : s.pending = .taskStep :: (stepsLeft u 1 ++ rest) := by
    rw [hp, ← List.cons_append, ← stepsLeft_of_lt (bodyLen_pos u)]
    rfl
  have hstep : step s = step ((afterTaking s rest).inBody u 0 (s.task u).tmp (stepsLeft u 0 ++ rest) s.op) := by
    rw [step_taskStep hpend hu, h0, hx.step_inBody (bodyLen_pos u), ← afterTaking_eq_inBody hready h0]
    rfl
  obtain ⟨o, ho⟩ := h.run hx rest s.op
  refine ⟨o, ?_⟩
  simpa only [runSteps, hstep, Nat.zero_add] using ho

end

/-- The end of a body: the task is not ready, and nothing but the effect of the operations is left of it. -/
theorem inBody_end {u : TaskId} {y : State} (T : Temps) (o : OpPort) {rest : List Event} (hp : y.pending = rest) :
    let t := y.inBody u (bodyLen u) T (stepsLeft u (bodyLen u) ++ rest) o
    t.pending = rest ∧ (t.task u).ready = false ∧ (t.task u).tstep = 0 ∧
      Frame { reg := [.tstat u], tmp := [u] } y t := by
  have hleft : stepsLeft u (bodyLen u) = [] := by simp [stepsLeft]
  rw [hleft, List.nil_append, ← hp]
  exact ⟨rfl, by simp [inBody_task, bodyRegs], by simp [inBody_task, bodyRegs], inBody_frame y u _ T o⟩

/-- A whole body, from the state in which its task starts it. -/
theorem BodyRun.ends {s y : State} {u : TaskId} {n : Nat} {T : Temps} {rest : List Event}
    (h : BodyRun u 0 (n + 1) (afterTaking s rest) (s.task u).tmp y T) (hn : n + 1 = bodyLen u)
    (hu : runningTask s = some u) (h0 : (s.task u).tstep = 0)
    (hp : s.pending = List.replicate (bodyLen u) .taskStep ++ rest) :
    ∃ t, runSteps (n + 1) s = .next t ∧ t.pending = rest ∧ (t.task u).ready = false ∧ (t.task u).tstep = 0 ∧
      t.kin = y.kin ∧ (∀ a, t.axis a = y.axis a) ∧ (∀ l, t.slot l = y.slot l) ∧
      Frame { reg := [.tstat u], tmp := [u] } y t := by
  obtain ⟨o, ho⟩ := h.start hu h0 hp
  obtain ⟨hpend, hready, htstep, hframe⟩ := inBody_end T o h.keeps.pending
  rw [← hn] at hpend hready htstep hframe
  exact ⟨_, ho, hpend, hready, htstep, inBody_kin .., inBody_axis _ _ _ _ _ _, inBody_slot _ _ _ _ _ _, hframe⟩

/-! #### The operations that a body issues, on the plain state -/

section
variable (u : TaskId) (args : Words5) (x : State)

theorem taskOp_slotGet (l : Slot) :
    taskOp u (.slotGet l) args x =
      (x.issue (.task u) args).respond .ok { w0 := (x.slot l).val, w1 := boolWord (x.slot l).valid } := by
  rw [taskOp_of_next (exec_slotGet l _), issue_slot]

theorem taskOp_slotPut (l : Slot) :
    taskOp u (.slotPut l) args x = ((x.putSlot l args.w0).issue (.task u) args).respond .ok {} := by
  rw [taskOp_of_next (exec_slotPut (.inl (issue_task_hostInRun _ _ _)))]
  simp [slotPut]

theorem taskOp_motOut (a : Axis) :
    taskOp u (.motOut a) args x = ((x.driveDuty a args.w0).issue (.task u) args).respond .ok {} := by
  rw [taskOp_of_next (exec_motOut (issue_task_hostInRun _ _ _))]
  simp [motOut]

end

/-- A step whose operation has the plain effect `y`, and whose post-action takes its answer into the temporaries or
the plain state. -/
theorem BodyRun.answer_post {u : TaskId} {x y z : State} {k : Nat} {T T' : Temps} {i : Instr} {args : Words5}
    {st : Status} {r : Words5} (hk : k < bodyLen u) (hm : ∀ a, i ≠ .motOut a)
    (hb : ∀ p o, bodyStep u (x.inBody u k T p o) k = some { instr := i, args := args })
    (he : taskOp u i args x = (y.issue (.task u) args).respond st r) (hz : Keeps y z)
    (hpost : ∀ p o, o.status = st → o.res = r → bodyPost u k (y.inBody u k T p o) = z.inBody u k T' p o) :
    BodyRun u k 1 x T z T' := by
  have hkeeps : Keeps x y := by
    obtain ⟨hmode, hfault, hports, hpending, htask, hstrobe⟩ := taskOp_keeps (bodyStep_issues (hb [] {})) hm args x
    rw [he] at hmode hfault hports hpending htask hstrobe
    constructor <;> simp_all
  refine .op (o' := (taskOp u i args x).op) hk hb (fun p => ?_) (hkeeps.trans hz)
  rw [he, respond_inBody, issue_inBody]
  exact hpost p _ rfl rfl

/-- The same where the post-action writes temporaries only. -/
theorem BodyRun.answer {u : TaskId} {x y : State} {k : Nat} {T T' : Temps} {i : Instr} {args : Words5}
    {st : Status} {r : Words5} (hk : k < bodyLen u) (hm : ∀ a, i ≠ .motOut a)
    (hb : ∀ p o, bodyStep u (x.inBody u k T p o) k = some { instr := i, args := args })
    (he : taskOp u i args x = (y.issue (.task u) args).respond st r)
    (hpost : ∀ p o, o.status = st → o.res = r → bodyPost u k (y.inBody u k T p o) = y.inBody u k T' p o) :
    BodyRun u k 1 x T y T' := .answer_post hk hm hb he (.refl y) hpost

@[simp] theorem boolWord_beq_one (b : Bool) : (boolWord b == 1#32) = b := by cases b <;> rfl

/-! #### The body of `MOT_a` (R217) -/

/-- The temporaries of a motor task that has read its duty slot. -/
def dutyRead (c : SlotCell) (T : Temps) : Temps := { T with t1 := c.val, t0 := boolWord c.valid }

section
variable (a : Axis) (x : State) (T : Temps)

theorem motBody_get :
    BodyRun (.mot a) 0 1 x T x (dutyRead (x.slot (.duty a)) T) := by
  refine .answer (i := .slotGet (.duty a)) (bodyLen_pos _) (by simp) (fun _ _ => rfl)
    (taskOp_slotGet _ _ _ _) (fun p o _ hr => ?_)
  simp only [bodyPost, motPost, inBody_mapTmp, inBody_op, hr, dutyRead]

variable {a x}

/-- The motor step drives a valid duty, and nothing from a slot that is "none". -/
theorem motBody_out (hx : Undisturbed (.mot a) x) {c : SlotCell} (p : List Event) (o : OpPort) :
    ∃ o', step (x.inBody (.mot a) 1 (dutyRead c T) (stepsLeft (.mot a) 1 ++ p) o) =
      .next ((if c.valid then x.driveDuty a c.val else x).inBody (.mot a) 2 (dutyRead c T)
        (stepsLeft (.mot a) 2 ++ p) o') := by
  have hguard (p : List Event) (o : OpPort) : bodyStep (.mot a) (x.inBody (.mot a) 1 (dutyRead c T) p o) 1 =
      guarded c.valid (.motOut a) { w0 := c.val } := by
    simp [bodyStep, motStep, dutyRead]
  cases hc : c.valid with
  | false => exact ⟨o, hx.step_of_none (by simp [bodyLen]) fun p o => by rw [hguard, hc]; rfl⟩
  | true =>
    refine ⟨(taskOp (.mot a) (.motOut a) { w0 := c.val } x).op,
      hx.step_of_some (by simp [bodyLen]) (fun p o => by rw [hguard, hc]; rfl) fun p => ?_⟩
    rw [taskOp_motOut, respond_inBody, issue_inBody]
    rfl

end

/-- Settles O54: the body reads the duty slot, then drives what it read. -/
theorem motorBodyDrivesTheDutySlot : Obligations.MotorBodyDrivesTheDutySlot := by
  intro s a rest hu h0 hp
  have hx : Undisturbed (.mot a) (afterTaking s rest) := undisturbed_afterTaking hu
  have hget := motBody_get a (afterTaking s rest) (s.task (.mot a)).tmp
  rw [afterTaking_slot] at hget
  generalize s.slot (.duty a) = c at hget ⊢
  obtain ⟨o, ho⟩ := hget.start (n := 0) hu h0 hp
  obtain ⟨o', ho'⟩ := motBody_out (s.task (.mot a)).tmp hx (c := c) rest o
  have hframe : Frame { duty := [a] } (afterTaking s rest)
      (if c.valid then (afterTaking s rest).driveDuty a c.val else afterTaking s rest) := by
    split
    · exact .driveDuty a _ _
    · exact .refl _ _
  obtain ⟨hpend, hready, htstep, hend⟩ :=
    inBody_end (u := .mot a) (dutyRead c (s.task (.mot a)).tmp) o' (hframe.pending.trans (afterTaking_pending s rest))
  refine ⟨_, (runSteps_add 1 1 ho).trans (runSteps_succ 0 ho'), hpend, ?_, ?_, hready, htstep, ?_⟩
  · cases c.valid <;> simp
  · cases c.valid <;> simp
  · exact (hframe.mono (by simp) (by simp) (by simp) (by simp) (by simp)).trans
      (hend.mono (by simp) (by simp) (by simp) (by simp) (by simp))

end Sys2Proof.Machine

namespace Sys2Proof.Machine

open Sys2Proof Host

/-! #### The body of `ENC_a` (R207) -/

/-- The home request is made and asserted (R207, R209). -/
def homeRequested (x : State) : Bool := (x.slot .homeReq).valid && (x.slot .homeReq).val.getLsbD 0

theorem homeAsserted_slot (c : SlotCell) :
    homeAsserted { w0 := c.val, w1 := boolWord c.valid } = (c.valid && c.val.getLsbD 0) := by
  simp [homeAsserted]

section
variable (u : TaskId) (args : Words5) (x : State) (a : Axis)

theorem taskOp_encRead :
    taskOp u (.encRead a) args x =
      ((x.mapEnc a fun e => encSampled e (x.portEnc a)).issue (.task u) args).respond .ok
        { w0 := (encSampled (x.axis a).enc (x.portEnc a)).abs } := by
  rw [taskOp_of_next (exec_encRead (issue_task_hostInRun _ _ _))]
  simp [encRead]

theorem taskOp_encZero :
    taskOp u (.encZero a) args x =
      ((x.mapEnc a fun e => { e with abs := 0 }).issue (.task u) args).respond .ok {} := by
  rw [taskOp_of_next (exec_encZero (issue_task_hostInRun _ _ _))]
  simp

theorem taskOp_swLap :
    taskOp u (.swLap a) args x =
      ((x.mapSw a fun r => { r with count := x.portSw a, last := x.portSw a }).issue (.task u) args).respond .ok
        { w0 := u16Word (x.portSw a - (x.axis a).sw.last) } := by
  rw [taskOp_of_next (exec_swLap (issue_task_hostInRun _ _ _))]
  simp [swLap]

theorem taskOp_encPos :
    taskOp u (.encPos a) args x =
      (x.issue (.task u) args).respond .ok { w0 := ticksToMm (x.axis a).enc (x.axis a).enc.abs } := by
  rw [taskOp_of_next (exec_encPos (issue_task_hostInRun _ _ _)), issue_axis]

theorem taskOp_encDpos :
    taskOp u (.encDpos a) args x =
      (x.issue (.task u) args).respond .ok { w0 := ticksToMm (x.axis a).enc (x.axis a).enc.lastDelta } := by
  rw [taskOp_of_next (exec_encDpos (issue_task_hostInRun _ _ _)), issue_axis]

end

/-- A put without a post-action. -/
theorem BodyRun.put {u : TaskId} {x : State} {k : Nat} {T : Temps} (l : Slot) (w : Word) (hk : k < bodyLen u)
    (hb : ∀ p o, bodyStep u (x.inBody u k T p o) k = some { instr := .slotPut l, args := { w0 := w } })
    (hpost : ∀ s, bodyPost u k s = s) : BodyRun u k 1 x T (x.putSlot l w) T :=
  .answer hk (by simp) hb (taskOp_slotPut u _ x l) fun _ _ _ _ => hpost _

@[simp] theorem afterTaking_portEnc (s : State) (l : List Event) (a : Axis) :
    (afterTaking s l).portEnc a = s.portEnc a := by simp [afterTaking]

@[simp] theorem afterTaking_portSw (s : State) (l : List Event) (a : Axis) :
    (afterTaking s l).portSw a = s.portSw a := by simp [afterTaking]

/-- The position zeroed at a home request, and only then (R208). -/
def encZeroedIf (a : Axis) (home : Bool) (y : State) : State :=
  if home then y.mapEnc a fun e => { e with abs := 0 } else y

/-- The measurement of an encoder body: the sample, the position zeroed at a home request, the lap. -/
def encMeasured (a : Axis) (home : Bool) (x : State) : State :=
  let y := x.mapEnc a fun e => encSampled e (x.portEnc a)
  let z := encZeroedIf a home y
  z.mapSw a fun r => { r with count := z.portSw a, last := z.portSw a }

/-- The publication of a lap of `lap` µs, with the position and the movement in the registers: the velocity only for
a lap that is not 0 (R110). -/
def encPublished (a : Axis) (lap : Word) (z : State) : State :=
  let y := z.putSlot (.pos a) (ticksToMm (z.axis a).enc (z.axis a).enc.abs)
  let v := velocity (ticksToMm (z.axis a).enc (z.axis a).enc.lastDelta) lap
  (if lap ≠ 0 then y.putSlot (.vel a) v else y).putSlot (.dt a) lap

section
variable (a : Axis) (x : State) (T : Temps)

theorem encBody_measures : ∃ T', T'.t1 = u16Word (x.portSw a - (x.axis a).sw.last) ∧
    BodyRun (.enc a) 0 4 x T (encMeasured a (homeRequested x) x) T' := by
  have hget : BodyRun (.enc a) 0 1 x T x { T with t0 := boolWord (homeRequested x) } := by
    refine .answer (bodyLen_pos _) (by simp) (fun _ _ => rfl) (taskOp_slotGet _ _ _ _) fun p o _ hr => ?_
    simp only [bodyPost, encPost, inBody_mapTmp, inBody_op, hr, homeAsserted_slot, homeRequested]
  generalize homeRequested x = home at hget ⊢
  have hread (T : Temps) : BodyRun (.enc a) 1 1 x T (x.mapEnc a fun e => encSampled e (x.portEnc a)) T :=
    .answer (by simp [bodyLen]) (by simp) (fun _ _ => rfl) (taskOp_encRead _ _ _ _) fun _ _ _ _ => rfl
  have hzero (y : State) : BodyRun (.enc a) 2 1 y { T with t0 := boolWord home }
      (encZeroedIf a home y) { T with t0 := boolWord home } := by
    cases home with
    | false => exact .skip (by simp [bodyLen]) fun p o => by simp [bodyStep, encStep, guarded]
    | true =>
      exact .answer (by simp [bodyLen]) (by simp) (fun p o => by simp [bodyStep, encStep, guarded])
        (taskOp_encZero _ {} _ _) fun _ _ _ _ => rfl
  have hlap (y : State) (T : Temps) : BodyRun (.enc a) 3 1 y T
      (y.mapSw a fun r => { r with count := y.portSw a, last := y.portSw a })
      { T with t1 := u16Word (y.portSw a - (y.axis a).sw.last) } := by
    refine .answer (by simp [bodyLen]) (by simp) (fun _ _ => rfl) (taskOp_swLap _ _ _ _) fun p o _ hr => ?_
    simp only [bodyPost, encPost, inBody_mapTmp, inBody_op, hr]
  refine ⟨_, ?_, ((hget.trans (hread _)).trans (hzero _)).trans (hlap _ _)⟩
  cases home <;> simp [encZeroedIf]

theorem encBody_publishes : ∃ T', BodyRun (.enc a) 4 5 x T (encPublished a T.t1 x) T' := by
  have hpos : BodyRun (.enc a) 4 1 x T x { T with t2 := ticksToMm (x.axis a).enc (x.axis a).enc.abs } := by
    refine .answer (by simp [bodyLen]) (by simp) (fun _ _ => rfl) (taskOp_encPos _ _ _ _) fun p o _ hr => ?_
    simp only [bodyPost, encPost, inBody_mapTmp, inBody_op, hr]
  have hputPos (y : State) (T : Temps) : BodyRun (.enc a) 5 1 y T (y.putSlot (.pos a) T.t2) T :=
    .put _ _ (by simp [bodyLen]) (fun p o => by simp [bodyStep, encStep, guarded]) fun _ => rfl
  have hdpos (y : State) (T : Temps) (hy : y.axis a = x.axis a) : BodyRun (.enc a) 6 1 y T y
      { T with t3 := ticksToMm (x.axis a).enc (x.axis a).enc.lastDelta } := by
    refine .answer (by simp [bodyLen]) (by simp) (fun _ _ => rfl) (taskOp_encDpos _ _ _ _) fun p o _ hr => ?_
    simp only [bodyPost, encPost, inBody_mapTmp, inBody_op, hr, hy]
  have hvel (y : State) (T : Temps) : BodyRun (.enc a) 7 1 y T
      (if T.t1 ≠ 0 then y.putSlot (.vel a) (velocity T.t3 T.t1) else y) T := by
    split
    case isTrue h =>
      exact .put _ _ (by simp [bodyLen]) (fun p o => by simpa [bodyStep, encStep, guarded] using h) fun _ => rfl
    case isFalse h => exact .skip (by simp [bodyLen]) fun p o => by simpa [bodyStep, encStep, guarded] using h
  have hdt (y : State) (T : Temps) : BodyRun (.enc a) 8 1 y T (y.putSlot (.dt a) T.t1) T :=
    .put _ _ (by simp [bodyLen]) (fun p o => by simp [bodyStep, encStep, guarded]) fun _ => rfl
  exact ⟨_, (((hpos.trans (hputPos _ _)).trans (hdpos _ _ (by simp))).trans (hvel _ _)).trans (hdt _ _)⟩

end

section
variable (a : Axis) (home : Bool) (lap : Word) (x : State)

theorem encMeasured_axis : (encMeasured a home x).axis a =
    { x.axis a with
      enc := if home then { encSampled (x.axis a).enc (x.portEnc a) with abs := 0 }
        else encSampled (x.axis a).enc (x.portEnc a)
      sw := { count := x.portSw a, last := x.portSw a } } := by
  cases home <;> simp [encMeasured, encZeroedIf]

/-- Zeroing the position leaves the conversion and the movement. -/
theorem encMeasured_ticksToMm (w : Word) : ticksToMm ((encMeasured a home x).axis a).enc w =
    ticksToMm (encSampled (x.axis a).enc (x.portEnc a)) w := by
  rw [encMeasured_axis]
  cases home <;> rfl

theorem encMeasured_lastDelta : ((encMeasured a home x).axis a).enc.lastDelta =
    (encSampled (x.axis a).enc (x.portEnc a)).lastDelta := by
  rw [encMeasured_axis]
  cases home <;> rfl

@[simp] theorem encMeasured_slot (l : Slot) : (encMeasured a home x).slot l = x.slot l := by
  cases home <;> simp [encMeasured, encZeroedIf]

theorem encMeasured_frame :
    Frame { reg := [.axis a .encAbs, .axis a .encLastDelta, .axis a .encRaw, .axis a .encLastRaw,
                    .axis a .swCount, .axis a .swLast] } x (encMeasured a home x) := by
  have hzero (y : State) : Frame { reg := [.axis a .encAbs] } y (encZeroedIf a home y) := by
    cases home with
    | false => exact .refl _ y
    | true => exact .mapEnc_abs_zero a y
  unfold encMeasured
  dsimp only
  refine Frame.trans (t := x.mapEnc a fun e => encSampled e (x.portEnc a)) ?_
    (Frame.trans (t := encZeroedIf a home (x.mapEnc a fun e => encSampled e (x.portEnc a))) ?_ ?_)
  · exact (Frame.mapEnc_encSampled a x _).mono (by simp) (by simp) (by simp) (by simp) (by simp)
  · exact (hzero _).mono (by simp) (by simp) (by simp) (by simp) (by simp)
  · exact (Frame.mapSw a _ _).mono (by simp) (by simp) (by simp) (by simp) (by simp)

@[simp] theorem encPublished_axis (b : Axis) : (encPublished a lap x).axis b = x.axis b := by
  unfold encPublished
  dsimp only
  split <;> simp

theorem encPublished_slot (l : Slot) : (encPublished a lap x).slot l =
    if l = .dt a then { val := lap, valid := true }
    else if l = .vel a ∧ lap ≠ 0 then
      { val := velocity (ticksToMm (x.axis a).enc (x.axis a).enc.lastDelta) lap, valid := true }
    else if l = .pos a then { val := ticksToMm (x.axis a).enc (x.axis a).enc.abs, valid := true }
    else x.slot l := by
  unfold encPublished
  dsimp only
  split <;> simp_all [slotStored]

theorem encPublished_frame :
    Frame { reg := slotRegs (.pos a) ++ slotRegs (.vel a) ++ slotRegs (.dt a) } x (encPublished a lap x) := by
  have hput (l : Slot) (w : Word) (y : State) (hl : l = .pos a ∨ l = .vel a ∨ l = .dt a) :
      Frame { reg := slotRegs (.pos a) ++ slotRegs (.vel a) ++ slotRegs (.dt a) } y (y.putSlot l w) := by
    refine (Frame.setSlot l _ y).mono (fun r hr => ?_) (by simp) (by simp) (by simp) (by simp)
    obtain rfl | rfl | rfl := hl <;> simp [hr]
  unfold encPublished
  dsimp only
  refine Frame.trans ?_ (hput _ _ _ (by simp))
  split
  · exact (hput _ _ _ (by simp)).trans (hput _ _ _ (by simp))
  · exact hput _ _ _ (by simp)

end

/-- Settles O53: the measurement in the steps up to the lap, then the publication. -/
theorem encoderBodyPublishesTheSample : Obligations.EncoderBodyPublishesTheSample := by
  intro s a rest hu h0 hp e home lap dpos
  obtain ⟨T₁, hlap, hmeasure⟩ := encBody_measures a (afterTaking s rest) (s.task (.enc a)).tmp
  obtain ⟨T₂, hpublish⟩ := encBody_publishes a (encMeasured a home (afterTaking s rest)) T₁
  have hhome : homeRequested (afterTaking s rest) = home := by simp [homeRequested, home]
  have hlap' : T₁.t1 = lap := by rw [hlap, afterTaking_axis]; rfl
  rw [hhome] at hmeasure
  rw [hlap'] at hpublish
  obtain ⟨t, hrun, hpend, hready, htstep, -, haxis, hslot, hend⟩ :=
    (hmeasure.trans hpublish).ends rfl hu h0 hp
  refine ⟨t, hrun, hpend, ?_, ?_, ?_, ?_, ?_, ?_, hready, htstep, ?_⟩
  · simp [haxis, encMeasured_axis, e]
  · simp [haxis, encMeasured_axis]
  · simp only [hslot, haxis, encPublished_axis, encPublished_slot, encMeasured_ticksToMm]
    simp [ticksToMm, i32Val, e]
  · intro hne
    rw [hslot, encPublished_slot, if_neg (by simp), if_pos ⟨rfl, hne⟩, encMeasured_ticksToMm, encMeasured_lastDelta]
    simp [ticksToMm, i32Val, velocity, e, dpos]
  · intro hzero
    simp [hslot, encPublished_slot, hzero]
  · simp [hslot, encPublished_slot]
  · refine Frame.trans (t := encMeasured a home (afterTaking s rest)) ?_
      (Frame.trans (t := encPublished a lap (encMeasured a home (afterTaking s rest))) ?_ ?_)
    · exact (encMeasured_frame a home _).mono (by simp) (by simp) (by simp) (by simp) (by simp)
    · exact (encPublished_frame a lap _).mono (by simp +contextual) (by simp) (by simp) (by simp) (by simp)
    · exact hend.mono (by simp) (by simp) (by simp) (by simp) (by simp)

end Sys2Proof.Machine

/-! #### The body of `CTRL`: the latch at its start, the fault section and the home section (R209 to R211) -/

namespace Sys2Proof.Machine

open Sys2Proof Host

/-- The guard of the section in which a step of `CTRL` after the first stands (R209). -/
def sectionGuard (T : Temps) (k : Nat) : Bool :=
  if k ≤ 2 then gFault T
  else if k ≤ 9 then gHome T
  else if 11 ≤ k ∧ k ≤ 21 then gCommand T
  else gNormal T

/-- No step is taken outside its section. -/
theorem ctrlStep_of_sectionGuard {s : State} {k : Nat} (h0 : k ≠ 0)
    (h : sectionGuard (s.task .ctrl).tmp k = false) : ctrlStep s k = none := by
  unfold ctrlStep
  dsimp only
  split <;> simp_all [sectionGuard, guarded]

/-- A row of steps outside their sections. -/
theorem BodyRun.skip_section {x : State} {k : Nat} {T : Temps} (n : Nat) (h0 : k ≠ 0) (hk : k + n ≤ 32)
    (hfault : k ≤ 2 → gFault T = false) (hhome : k ≤ 9 → 3 < k + n → gHome T = false)
    (hnormal : 10 < k + n → gNormal T = false ∨ 10 < k ∧ k + n ≤ 22 ∧ gCommand T = false) :
    BodyRun .ctrl k n x T x T := by
  refine .skips n hk fun j p o hlo hhi => ctrlStep_of_sectionGuard (by omega) ?_
  rw [inBody_tmp]
  unfold sectionGuard
  split_ifs with h2 h9 h21
  · exact hfault (by omega)
  · exact hhome (by omega) (by omega)
  · obtain hn | ⟨-, -, hc⟩ := hnormal (by omega)
    · rw [gCommand, hn, Bool.false_and]
    · exact hc
  · exact (hnormal (by omega)).resolve_right (by omega)

/-- The temporaries after step 0: the home request and the fault bit latched, no command held. -/
def ctrlLatched (x : State) (T : Temps) : Temps :=
  { T with t0 := boolWord (homeRequested x), t7 := boolWord x.fault, t4 := 0, t5 := 0 }

section
variable (x : State) (T : Temps)

theorem ctrlBody_latch : BodyRun .ctrl 0 1 x T x (ctrlLatched x T) := by
  refine .answer (bodyLen_pos _) (by simp) (fun _ _ => rfl) (taskOp_slotGet _ _ _ _) fun p o _ hr => ?_
  simp only [bodyPost, ctrlPost, inBody_mapTmp, inBody_op, inBody_fault, hr, homeAsserted_slot, ctrlLatched,
    homeRequested]

@[simp] theorem gFault_ctrlLatched : gFault (ctrlLatched x T) = x.fault := by simp [gFault, ctrlLatched]

@[simp] theorem gHome_ctrlLatched : gHome (ctrlLatched x T) = (!x.fault && homeRequested x) := by
  simp [gHome, gFault, ctrlLatched]

@[simp] theorem gNormal_ctrlLatched : gNormal (ctrlLatched x T) = (!x.fault && !homeRequested x) := by
  cases hf : x.fault <;> cases hh : homeRequested x <;> simp [gNormal, ctrlLatched, hf, hh, boolWord]

@[simp] theorem gCommand_ctrlLatched : gCommand (ctrlLatched x T) = false := by simp [gCommand, ctrlLatched]

end

/-- Both duty slots set to +0.0. -/
def dutiesZeroed (x : State) : State := (x.putSlot (.duty .A) zeroF).putSlot (.duty .B) zeroF

theorem dutiesZeroed_dutySlotsZero (x : State) : (dutiesZeroed x).dutySlotsZero = true := by
  simp [dutiesZeroed, State.dutySlotsZero, slotStored]

theorem dutiesZeroed_frame (x : State) :
    Frame { reg := slotRegs (.duty .A) ++ slotRegs (.duty .B) } x (dutiesZeroed x) :=
  Frame.trans ((Frame.setSlot (.duty .A) _ x).mono (by simp +contextual) (by simp) (by simp) (by simp) (by simp))
    ((Frame.setSlot (.duty .B) _ _).mono (by simp +contextual) (by simp) (by simp) (by simp) (by simp))

/-- The fault section (R210). -/
theorem ctrlBody_fault {x : State} (hf : x.fault = true) (T : Temps) :
    BodyRun .ctrl 0 32 x T (dutiesZeroed x) (ctrlLatched x T) := by
  have hput (k : Nat) (a : Axis) (y : State) (hk : k = 1 ∧ a = .A ∨ k = 2 ∧ a = .B) :
      BodyRun .ctrl k 1 y (ctrlLatched x T) (y.putSlot (.duty a) zeroF) (ctrlLatched x T) := by
    obtain ⟨rfl, rfl⟩ | ⟨rfl, rfl⟩ := hk <;>
      exact .put _ _ (by simp [bodyLen]) (fun p o => by simp [bodyStep, ctrlStep, guarded, hf]) fun _ => rfl
  have hrest (y : State) : BodyRun .ctrl 3 29 y (ctrlLatched x T) y (ctrlLatched x T) :=
    .skip_section 29 (by simp) (by simp) (by simp) (by simp [hf]) (by simp [hf])
  exact (((ctrlBody_latch x T).trans (hput 1 .A _ (by simp))).trans (hput 2 .B _ (by simp))).trans (hrest _)

/-! The home section (R211). -/

theorem taskOp_pidReset (u : TaskId) (args : Words5) (x : State) (a : Axis) :
    taskOp u (.pidReset a) args x = ((x.mapPid a pidCleared).issue (.task u) args).respond .ok {} := by
  rw [taskOp_of_next (exec_pidReset (issue_task_hostInRun _ _ _))]
  simp

theorem taskOp_kinReset (u : TaskId) (args : Words5) (x : State) :
    taskOp u .kinReset args x = ((x.setKin {}).issue (.task u) args).respond .ok {} := by
  rw [taskOp_of_next (exec_kinReset (issue_task_hostInRun _ _ _))]
  simp

/-- A generator released (spec/42_ramp.md R146). -/
def released (r : RampRegs) : RampRegs := { r with state := .idle, count := 0, rd := 0, n := 0 }

theorem taskOp_rampRelease (u : TaskId) (args : Words5) (x : State) (a : Axis) :
    taskOp u (.rampRelease a) args x = ((x.mapRamp a released).issue (.task u) args).respond .ok {} := by
  rw [taskOp_of_next (exec_rampRelease (issue_task_hostInRun _ _ _))]
  simp [rampRelease, released]

/-- The generator of an axis released and its setpoint zeroed. -/
def rampHomed (a : Axis) (x : State) : State := (x.mapRamp a released).setSp a zeroF

/-- The effect of the home section. -/
def homed (x : State) : State :=
  dutiesZeroed (rampHomed .B (rampHomed .A (((x.mapPid .A pidCleared).mapPid .B pidCleared).setKin {})))

/-- The home section (R211). -/
theorem ctrlBody_home {x : State} (hf : x.fault = false) (hh : homeRequested x = true) (T : Temps) :
    BodyRun .ctrl 0 32 x T (homed x) (ctrlLatched x T) := by
  have hskip : BodyRun .ctrl 1 2 x (ctrlLatched x T) x (ctrlLatched x T) :=
    .skip_section 2 (by simp) (by simp) (by simp [hf]) (by simp) (by simp)
  have hpid (k : Nat) (a : Axis) (y : State) (hk : k = 3 ∧ a = .A ∨ k = 4 ∧ a = .B) :
      BodyRun .ctrl k 1 y (ctrlLatched x T) (y.mapPid a pidCleared) (ctrlLatched x T) := by
    obtain ⟨rfl, rfl⟩ | ⟨rfl, rfl⟩ := hk <;>
      exact .answer (by simp [bodyLen]) (by simp) (fun p o => by simp [bodyStep, ctrlStep, guarded, hf, hh])
        (taskOp_pidReset _ {} _ _) fun _ _ _ _ => rfl
  have hkin (y : State) : BodyRun .ctrl 5 1 y (ctrlLatched x T) (y.setKin {}) (ctrlLatched x T) :=
    .answer (by simp [bodyLen]) (by simp) (fun p o => by simp [bodyStep, ctrlStep, guarded, hf, hh])
        (taskOp_kinReset _ {} _) fun _ _ _ _ => rfl
  have hramp (k : Nat) (a : Axis) (y : State) (hk : k = 6 ∧ a = .A ∨ k = 7 ∧ a = .B) :
      BodyRun .ctrl k 1 y (ctrlLatched x T) (rampHomed a y) (ctrlLatched x T) := by
    refine .answer_post (by simp [bodyLen]; omega) (by simp) (fun p o => ?_) (taskOp_rampRelease _ {} y a)
      (.setAxis rfl) fun p o _ _ => ?_
    · obtain ⟨rfl, rfl⟩ | ⟨rfl, rfl⟩ := hk <;> simp [bodyStep, ctrlStep, guarded, hf, hh]
    · obtain ⟨rfl, rfl⟩ | ⟨rfl, rfl⟩ := hk <;> simp [bodyPost, ctrlPost, rampHomed]
  have hput (k : Nat) (a : Axis) (y : State) (hk : k = 8 ∧ a = .A ∨ k = 9 ∧ a = .B) :
      BodyRun .ctrl k 1 y (ctrlLatched x T) (y.putSlot (.duty a) zeroF) (ctrlLatched x T) := by
    obtain ⟨rfl, rfl⟩ | ⟨rfl, rfl⟩ := hk <;>
      exact .put _ _ (by simp [bodyLen]) (fun p o => by simp [bodyStep, ctrlStep, guarded, hf, hh]) fun _ => rfl
  have hrest (y : State) : BodyRun .ctrl 10 22 y (ctrlLatched x T) y (ctrlLatched x T) :=
    .skip_section 22 (by simp) (by simp) (by simp) (by simp) (by simp [hh])
  have hpids := (((ctrlBody_latch x T).trans hskip).trans (hpid 3 .A _ (by simp))).trans (hpid 4 .B _ (by simp))
  have hramps := ((hpids.trans (hkin _)).trans (hramp 6 .A _ (by simp))).trans (hramp 7 .B _ (by simp))
  exact ((hramps.trans (hput 8 .A _ (by simp))).trans (hput 9 .B _ (by simp))).trans (hrest _)

theorem rampHomed_frame (a : Axis) (x : State) :
    Frame { reg := [.axis a .rampState, .axis a .rampCount, .axis a .rampRd, .axis a .rampN, .axis a .sp] } x
      (rampHomed a x) := by
  have hsp (y : State) : Frame { reg := [.axis a .sp] } y (y.setSp a zeroF) := by
    refine .setAxis (fun q hq => ?_) (fun _ _ => rfl) (fun _ => ⟨rfl, rfl⟩)
    cases q with
    | sp => simp at hq
    | _ => rfl
  exact ((Frame.mapRamp_released a x).mono (by simp) (by simp) (by simp) (by simp) (by simp)).trans
    ((hsp _).mono (by simp) (by simp) (by simp) (by simp) (by simp))

theorem homed_axis (x : State) (a : Axis) : (homed x).axis a =
    { x.axis a with pid := pidCleared (x.axis a).pid, ramp := released (x.axis a).ramp, sp := zeroF } := by
  cases a <;> simp [homed, dutiesZeroed, rampHomed]

@[simp] theorem homed_kin (x : State) : (homed x).kin = {} := by simp [homed, dutiesZeroed, rampHomed]

theorem readReg_of_homedRegs {t x : State} {a : Axis} {r : Reg} (ht : t.axis a = (homed x).axis a)
    (h : r ∈ homedRegs a) : readReg t r = 0 := by
  simp only [homedRegs, pidStateRegs, List.mem_cons, List.not_mem_nil, or_false] at h
  obtain rfl | rfl | rfl | rfl | rfl | rfl | rfl | rfl | rfl | rfl | rfl := h <;>
    simp [readReg, readAxisReg, ht, homed_axis, released, pidCleared, rampStateWord, boolWord]

/-- What the home section writes. -/
def homedWrites : Writes where
  reg := slotRegs (.duty .A) ++ slotRegs (.duty .B) ++ (kinematicsRegs ++ (homedRegs .A ++ homedRegs .B))

theorem mem_homedWrites_of_homedRegs {a : Axis} {r : Reg} (h : r ∈ homedRegs a) : r ∈ homedWrites.reg := by
  cases a <;> simp [homedWrites, h]

theorem homed_frame (x : State) : Frame homedWrites x (homed x) := by
  have hpid (a : Axis) (y : State) : Frame homedWrites y (y.mapPid a pidCleared) :=
    (Frame.mapPid_pidCleared a y).mono (fun r hr => mem_homedWrites_of_homedRegs (a := a) (by simp [homedRegs, hr]))
      (by simp) (by simp) (by simp) (by simp)
  have hkin (y : State) : Frame homedWrites y (y.setKin {}) :=
    (Frame.setKin y {}).mono (by simp +contextual [homedWrites]) (by simp) (by simp) (by simp) (by simp)
  have hramp (a : Axis) (y : State) : Frame homedWrites y (rampHomed a y) := by
    refine (rampHomed_frame a y).mono (fun r hr => mem_homedWrites_of_homedRegs (a := a) ?_)
      (by simp) (by simp) (by simp) (by simp)
    simp only [homedRegs, List.mem_cons, List.not_mem_nil, or_false] at hr ⊢
    tauto
  have hduty (y : State) : Frame homedWrites y (dutiesZeroed y) :=
    (dutiesZeroed_frame y).mono (fun r hr => List.mem_append_left _ hr) (by simp) (by simp) (by simp) (by simp)
  exact ((((hpid .A x).trans (hpid .B _)).trans (hkin _)).trans ((hramp .A _).trans (hramp .B _))).trans (hduty _)

theorem dutySlotsZero_congr {s t : State} (h : ∀ l, t.slot l = s.slot l) : t.dutySlotsZero = s.dutySlotsZero := by
  simp only [State.dutySlotsZero, h]

/-- Settles O55: the two sections, each of which leaves the duty slots at zero. -/
theorem controlBodyFaultAndHomeSections : Obligations.ControlBodyFaultAndHomeSections := by
  intro s rest hu h0 hp home outs
  constructor
  · intro hf
    obtain ⟨t, hrun, hpend, hready, htstep, -, -, hslot, hend⟩ :=
      (ctrlBody_fault (x := afterTaking s rest) hf (s.task .ctrl).tmp).ends rfl hu h0 hp
    refine ⟨t, hrun, hpend, (dutySlotsZero_congr hslot).trans (dutiesZeroed_dutySlotsZero _), hready, htstep, ?_⟩
    exact ((dutiesZeroed_frame _).mono (fun r hr => List.mem_cons_of_mem _ hr) (by simp) (by simp) (by simp)
      (by simp)).trans (hend.mono (by simp [outs]) (by simp) (by simp) (by simp) (by simp))
  · intro hf hh
    have hhome : homeRequested (afterTaking s rest) = true := by rwa [homeRequested, afterTaking_slot]
    obtain ⟨t, hrun, hpend, hready, htstep, hkin, haxis, hslot, hend⟩ :=
      (ctrlBody_home (x := afterTaking s rest) hf hhome (s.task .ctrl).tmp).ends rfl hu h0 hp
    refine ⟨t, hrun, hpend, (dutySlotsZero_congr hslot).trans (dutiesZeroed_dutySlotsZero _),
      hkin.trans (homed_kin _), fun a r hr => readReg_of_homedRegs (haxis a) hr, hready, htstep, ?_⟩
    exact ((homed_frame _).mono (fun r hr => List.mem_cons_of_mem _ hr) (by simp [homedWrites]) (by simp [homedWrites])
      (by simp [homedWrites]) (by simp [homedWrites])).trans
      (hend.mono (by simp [outs]) (by simp) (by simp) (by simp) (by simp))

end Sys2Proof.Machine

/-! #### The normal section of `CTRL` (R209 steps 10 to 31, R212, R213, R215, R216) -/

namespace Sys2Proof.Machine

open Sys2Proof Host

/-! The steps that an axis has of its own, and their post-actions. -/

section
variable (s : State) (a : Axis)

theorem ctrlStep_segment : ctrlStep s (12 + 3 * axisNum a) = guarded (gCommand (s.task .ctrl).tmp) (.kinSeg a) := by
  cases a <;> rfl

theorem ctrlStep_load : ctrlStep s (12 + 3 * axisNum a + 1) =
    guarded (gCommand (s.task .ctrl).tmp && (s.task .ctrl).tmp.t5 == 1) (.rampLoad a)
      { w0 := (s.task .ctrl).tmp.t2, w1 := (s.task .ctrl).tmp.t1, w2 := (s.task .ctrl).tmp.t3 } := by
  cases a <;> rfl

theorem ctrlStep_init : ctrlStep s (12 + 3 * axisNum a + 2) =
    guarded (gCommand (s.task .ctrl).tmp && (s.task .ctrl).tmp.t5 == 1) (.rampInit a) := by
  cases a <;> rfl

theorem ctrlStep_next : ctrlStep s (22 + 2 * axisNum a) =
    guarded (gNormal (s.task .ctrl).tmp && gRamp s a .ready) (.rampNext a) := by
  cases a <;> rfl

theorem ctrlStep_drained : ctrlStep s (22 + 2 * axisNum a + 1) =
    guarded (gNormal (s.task .ctrl).tmp && gRamp s a .ready && gDrained s a) (.rampRelease a) := by
  cases a <;> rfl

theorem ctrlStep_position : ctrlStep s (26 + 3 * axisNum a) =
    guarded (gNormal (s.task .ctrl).tmp) (.slotGet (.pos a)) := by
  cases a <;> rfl

theorem ctrlStep_pid : ctrlStep s (26 + 3 * axisNum a + 1) =
    guarded (gNormal (s.task .ctrl).tmp && (s.task .ctrl).tmp.t5 == 1) (.pidRun a)
      { w0 := (s.task .ctrl).tmp.t1, w1 := (s.axis a).sp, w2 := s.ports.tNow } := by
  cases a <;> rfl

theorem ctrlStep_duty : ctrlStep s (26 + 3 * axisNum a + 2) =
    guarded (gNormal (s.task .ctrl).tmp && (s.task .ctrl).tmp.t5 == 1 && !s.fault) (.slotPut (.duty a))
      { w0 := (s.task .ctrl).tmp.t2 } := by
  cases a <;> rfl

theorem ctrlPost_segment : ctrlPost (12 + 3 * axisNum a) s = segmentTaken s := by cases a <;> rfl
theorem ctrlPost_load : ctrlPost (12 + 3 * axisNum a + 1) s = s := by cases a <;> rfl
theorem ctrlPost_init : ctrlPost (12 + 3 * axisNum a + 2) s = s := by cases a <;> rfl
theorem ctrlPost_next : ctrlPost (22 + 2 * axisNum a) s = waypointTaken a s := by cases a <;> rfl
theorem ctrlPost_drained : ctrlPost (22 + 2 * axisNum a + 1) s = s := by cases a <;> rfl
theorem ctrlPost_position : ctrlPost (26 + 3 * axisNum a) s = positionTaken s := by cases a <;> rfl
theorem ctrlPost_pid : ctrlPost (26 + 3 * axisNum a + 1) s = dutyTaken s := by cases a <;> rfl
theorem ctrlPost_duty : ctrlPost (26 + 3 * axisNum a + 2) s = s := by cases a <;> rfl

theorem axisNum_le : axisNum a ≤ 1 := by cases a <;> decide

end

@[simp] theorem gRamp_inBody (x : State) (u : TaskId) (k : Nat) (T : Temps) (p : List Event) (o : OpPort) (a : Axis)
    (st : RampState) : gRamp (x.inBody u k T p o) a st = gRamp x a st := by simp [gRamp]

@[simp] theorem gBoth_inBody (x : State) (u : TaskId) (k : Nat) (T : Temps) (p : List Event) (o : OpPort) :
    gBoth (x.inBody u k T p o) = gBoth x := by simp [gBoth]

@[simp] theorem gDrained_inBody (x : State) (u : TaskId) (k : Nat) (T : Temps) (p : List Event) (o : OpPort)
    (a : Axis) : gDrained (x.inBody u k T p o) a = gDrained x a := by simp [gDrained]

/-- A step of `CTRL` whose operation is followed by no post-action, or by one on the temporaries. -/
theorem BodyRun.ctrlOp {x : State} {k : Nat} {T T' : Temps} {i : Instr} {args : Words5} (hk : k < 32)
    (hb : ∀ p o, ctrlStep (x.inBody .ctrl k T p o) k = some { instr := i, args := args })
    (hpost : ∀ p, ctrlPost k ((runOp i args x).inBody .ctrl k T p (runOp i args x).op) =
      (runOp i args x).inBody .ctrl k T' p (runOp i args x).op) : BodyRun .ctrl k 1 x T (runOp i args x) T' := by
  have hi : TaskIssues .ctrl i := bodyStep_issues (u := .ctrl) (hb [] {})
  have hm (a : Axis) : i ≠ .motOut a := by rintro rfl; simp [TaskIssues, opOwner] at hi
  exact .op hk hb hpost (taskOp_keeps hi hm args x)

/-- A step of `CTRL` without a post-action. -/
theorem BodyRun.ctrlGuarded {x : State} {k : Nat} {T : Temps} {g : Bool} {i : Instr} {args : Words5} (hk : k < 32)
    (hb : ∀ p o, ctrlStep (x.inBody .ctrl k T p o) k = guarded g i args) (hpost : ∀ s, ctrlPost k s = s) :
    BodyRun .ctrl k 1 x T (if g then runOp i args x else x) T := by
  cases g with
  | false => exact .skip hk hb
  | true => exact .ctrlOp hk hb fun p => hpost _

/-! The set-up of a command (R212, R213). -/

theorem runOp_rampState {i : Instr} (hi : TaskIssues .ctrl i) (args : Words5) (x : State) {a : Axis}
    (hinit : i ≠ .rampInit a) :
    ((runOp i args x).axis a).ramp.state = rampStateAfter i a (x.axis a).ramp.state := by
  rw [← issue_axis x (.task .ctrl) args a]
  exact (exec_rampState (exec_taskOp .ctrl i args x) hi (issue_task_hostInRun _ _ _) a).resolve_right
    fun h => hinit h.1

theorem runOp_rampGen_rampState (a b : Axis) (x : State) : ((runOp (.rampGen b) {} x).axis a).ramp.state =
    if a = b ∧ (x.axis a).ramp.state = .allocated then .ready else (x.axis a).ramp.state :=
  runOp_rampState (by simp [TaskIssues, opOwner]) _ _ (by simp)

theorem runOp_rampRelease_rampState (a b : Axis) (x : State) : ((runOp (.rampRelease b) {} x).axis a).ramp.state =
    if a = b then .idle else (x.axis a).ramp.state :=
  runOp_rampState (by simp [TaskIssues, opOwner]) _ _ (by simp)

theorem gBoth_iff {s : State} :
    gBoth s = true ↔ (s.axis .A).ramp.state = .allocated ∧ (s.axis .B).ramp.state = .allocated := by
  rw [gBoth, Bool.and_eq_true, gRamp_iff, gRamp_iff]

/-- Both segments generated, or both dropped (R213). -/
def segmentsDecided (z : State) : State :=
  if gBoth z then runOp (.rampGen .B) {} (runOp (.rampGen .A) {} z)
  else runOp (.rampRelease .B) {} (runOp (.rampRelease .A) {} z)

theorem commandSetUp_eq (c : Command) (x : State) :
    commandSetUp c x = segmentsDecided (segmentLoaded .B (segmentLoaded .A
      (runOp .kinUpdate { w0 := c.x, w1 := c.y, w2 := c.f } x))) := by
  simp only [commandSetUp, segmentsDecided, gBoth_iff]

/-- The temporaries that hold a segment to load. -/
def segmentRead (r : Words5) (T : Temps) : Temps := { T with t1 := r.w0, t2 := r.w1, t3 := r.w2, t5 := 1 }

/-- The temporaries that hold a position and its validity. -/
def positionRead (c : SlotCell) (T : Temps) : Temps := { T with t1 := c.val, t5 := boolWord c.valid }

section
variable {x : State} {T : Temps}

/-- A segment that was answered is loaded and sized. -/
theorem ctrlBody_load (a : Axis) (hc : gCommand T = true) :
    BodyRun .ctrl (12 + 3 * axisNum a + 1) 2 x T
      (if T.t5 == 1 then runOp (.rampInit a) {} (runOp (.rampLoad a) { w0 := T.t2, w1 := T.t1, w2 := T.t3 } x)
        else x) T := by
  have ha := axisNum_le a
  have hload := BodyRun.ctrlGuarded (x := x) (by omega)
    (fun p o => by rw [ctrlStep_load, inBody_tmp, hc, Bool.true_and]) fun s => ctrlPost_load s a
  have hinit (y : State) := BodyRun.ctrlGuarded (x := y) (by omega)
    (fun p o => by rw [ctrlStep_init, inBody_tmp, hc, Bool.true_and]) fun s => ctrlPost_init s a
  have hrun := hload.trans (hinit _)
  cases h5 : T.t5 == 1 with
  | true | false => rw [h5] at hrun; exact hrun

/-- The set-up of one axis's segment. -/
theorem ctrlBody_segment (a : Axis) (hc : gCommand T = true) :
    ∃ T', gCommand T' = true ∧ BodyRun .ctrl (12 + 3 * axisNum a) 3 x T (segmentLoaded a x) T' := by
  have ha := axisNum_le a
  have hseg {T' : Temps} (hpost : ∀ p, segmentTaken ((runOp (.kinSeg a) {} x).inBody .ctrl (12 + 3 * axisNum a) T p
      (runOp (.kinSeg a) {} x).op) = (runOp (.kinSeg a) {} x).inBody .ctrl (12 + 3 * axisNum a) T' p
      (runOp (.kinSeg a) {} x).op) :
      BodyRun .ctrl (12 + 3 * axisNum a) 1 x T (runOp (.kinSeg a) {} x) T' :=
    .ctrlOp (by omega) (fun p o => by rw [ctrlStep_segment, inBody_tmp, hc]; rfl)
      fun p => (ctrlPost_segment _ a).trans (hpost p)
  unfold segmentLoaded
  generalize runOp (.kinSeg a) {} x = z at hseg ⊢
  dsimp only
  split
  case isTrue hok =>
    refine ⟨segmentRead z.op.res T, hc, (hseg fun p => ?_).trans (ctrlBody_load (T := segmentRead z.op.res T) a hc)⟩
    simp only [segmentTaken, inBody_op, hok, if_true, inBody_mapTmp, segmentRead]
  case isFalse hok =>
    refine ⟨{ T with t5 := 0 }, hc, (hseg fun p => ?_).trans (ctrlBody_load (T := { T with t5 := 0 }) a hc)⟩
    simp only [segmentTaken, inBody_op, hok, if_false, inBody_mapTmp]

/-- Steps 18 to 21. -/
theorem ctrlBody_decide (hc : gCommand T = true) : BodyRun .ctrl 18 4 x T (segmentsDecided x) T := by
  have release (k : Nat) (a : Axis) (y : State) (hk : k = 18 ∧ a = .A ∨ k = 19 ∧ a = .B) :
      BodyRun .ctrl k 1 y T (if !gBoth y then runOp (.rampRelease a) {} y else y) T := by
    obtain ⟨rfl, rfl⟩ | ⟨rfl, rfl⟩ := hk <;>
      exact .ctrlGuarded (by simp) (fun p o => by simp [ctrlStep, hc]) fun _ => rfl
  have gen (k : Nat) (a : Axis) (y : State) (hk : k = 20 ∧ a = .A ∨ k = 21 ∧ a = .B) :
      BodyRun .ctrl k 1 y T (if gRamp y a .allocated then runOp (.rampGen a) {} y else y) T := by
    obtain ⟨rfl, rfl⟩ | ⟨rfl, rfl⟩ := hk <;>
      exact .ctrlGuarded (by simp) (fun p o => by simp [ctrlStep, hc]) fun _ => rfl
  have hrun := (((release 18 .A x (by simp)).trans (release 19 .B _ (by simp))).trans (gen 20 .A _ (by simp))).trans
    (gen 21 .B _ (by simp))
  unfold segmentsDecided
  cases hboth : gBoth x with
  | true =>
    obtain ⟨hA, hB⟩ := gBoth_iff.1 hboth
    have hA' : gRamp x .A .allocated = true := gRamp_iff.2 hA
    have hB' : gRamp (runOp (.rampGen .A) {} x) .B .allocated = true := by
      rw [gRamp_iff, runOp_rampGen_rampState, hB]; rfl
    simp only [hboth, hA', hB', Bool.not_true, Bool.false_eq_true, if_true, if_false] at hrun ⊢
    exact hrun
  | false =>
    have hboth' : gBoth (runOp (.rampRelease .A) {} x) = false := by
      rw [gBoth, gRamp, runOp_rampRelease_rampState, if_pos rfl]; rfl
    have hidle (a : Axis) :
        gRamp (runOp (.rampRelease .B) {} (runOp (.rampRelease .A) {} x)) a .allocated = false := by
      rw [gRamp, runOp_rampRelease_rampState, runOp_rampRelease_rampState]
      cases a <;> rfl
    simp only [hboth, hboth', hidle, Bool.not_false, Bool.false_eq_true, if_true, if_false] at hrun ⊢
    exact hrun

/-- Steps 11 to 21: the set-up of a command that was fetched. -/
theorem ctrlBody_setUp {c : Command} (hc : gCommand T = true) (h1 : T.t1 = c.x) (h2 : T.t2 = c.y) (h3 : T.t3 = c.f) :
    ∃ T', gCommand T' = true ∧ BodyRun .ctrl 11 11 x T (commandSetUp c x) T' := by
  have hupdate : BodyRun .ctrl 11 1 x T (runOp .kinUpdate { w0 := c.x, w1 := c.y, w2 := c.f } x) T :=
    .ctrlOp (by simp) (fun p o => by simp [ctrlStep, guarded, hc, h1, h2, h3]) fun _ => rfl
  obtain ⟨TA, hcA, hA⟩ := ctrlBody_segment (x := runOp .kinUpdate { w0 := c.x, w1 := c.y, w2 := c.f } x) .A hc
  obtain ⟨TB, hcB, hB⟩ := ctrlBody_segment
    (x := segmentLoaded .A (runOp .kinUpdate { w0 := c.x, w1 := c.y, w2 := c.f } x)) .B hcA
  rw [commandSetUp_eq]
  exact ⟨TB, hcB, ((hupdate.trans hA).trans hB).trans (ctrlBody_decide hcB)⟩

theorem commandFetched_of_idle {c : Command} {q : List Command} (hq : x.fifo = c :: q)
    (hidle : (x.axis .A).ramp.state = .idle ∧ (x.axis .B).ramp.state = .idle) :
    commandFetched x = commandSetUp c (x.setFifo q) := by
  simp only [commandFetched, hq, hidle, and_self, if_true]

theorem commandFetched_of_nil (hq : x.fifo = []) : commandFetched x = x := by
  simp only [commandFetched, hq]

theorem commandFetched_of_not_idle (hidle : ¬((x.axis .A).ramp.state = .idle ∧ (x.axis .B).ramp.state = .idle)) :
    commandFetched x = x := by
  unfold commandFetched
  split
  · rfl
  · exact if_neg hidle

/-- Steps 10 to 21 (R212, R213). -/
theorem ctrlBody_fetch (hN : gNormal T = true) (hc : gCommand T = false) :
    ∃ T', gNormal T' = true ∧ BodyRun .ctrl 10 12 x T (commandFetched x) T' := by
  have hnone : BodyRun .ctrl 11 11 x T x T :=
    .skip_section 11 (by simp) (by simp) (by simp) (by simp) fun _ => .inr ⟨by simp, by simp, hc⟩
  have hstep (p : List Event) (o : OpPort) : bodyStep .ctrl (x.inBody .ctrl 10 T p o) 10 =
      guarded (gRamp x .A .idle && gRamp x .B .idle) .fifoGet := by simp [bodyStep, ctrlStep, hN]
  by_cases hidle : (x.axis .A).ramp.state = .idle ∧ (x.axis .B).ramp.state = .idle
  case neg =>
    rw [commandFetched_of_not_idle hidle]
    refine ⟨T, hN, (BodyRun.skip (by simp [bodyLen]) fun p o => ?_).trans hnone⟩
    exact (hstep p o).trans (if_neg (by rwa [Bool.and_eq_true, gRamp_iff, gRamp_iff]))
  rw [gRamp_iff.2 hidle.1, gRamp_iff.2 hidle.2, Bool.and_self] at hstep
  cases hq : x.fifo with
  | nil =>
    have hget : taskOp .ctrl .fifoGet {} x = (x.issue (.task .ctrl) {}).respond .empty {} := by
      rw [taskOp_of_next (exec_fifoGet (issue_task_hostInRun _ _ _)),
        fifoGet_of_nil (s := x.issue (.task .ctrl) {}) hq]
      rfl
    rw [commandFetched_of_nil hq]
    refine ⟨T, hN, (BodyRun.answer (by simp [bodyLen]) (by simp) hstep hget fun p o ho _ => ?_).trans hnone⟩
    simp [bodyPost, ctrlPost, ho]
  | cons c q =>
    have hget : taskOp .ctrl .fifoGet {} x = ((x.setFifo q).issue (.task .ctrl) {}).respond .ok (wordsOf c) := by
      rw [taskOp_of_next (exec_fifoGet (issue_task_hostInRun _ _ _)),
        fifoGet_of_cons (s := x.issue (.task .ctrl) {}) hq]
      rfl
    rw [commandFetched_of_idle hq hidle]
    have hC : gCommand { T with t1 := c.x, t2 := c.y, t3 := c.f, t4 := 1 } = true := by
      rw [gCommand, Bool.and_eq_true]
      exact ⟨hN, rfl⟩
    obtain ⟨T', hc', hrun⟩ := ctrlBody_setUp (x := x.setFifo q) (c := c) hC rfl rfl rfl
    refine ⟨T', (Bool.and_eq_true_iff.1 hc').1,
      (BodyRun.answer (by simp [bodyLen]) (by simp) hstep hget fun p o ho hr => ?_).trans hrun⟩
    simp only [bodyPost, ctrlPost, inBody_op, ho, hr, if_true, inBody_mapTmp, wordsOf]

/-! The waypoints (R215). -/

/-- The next waypoint as the setpoint of a `READY` generator, where there is one. -/
def setpointAdvanced (a : Axis) (x : State) : State :=
  let r := (x.axis a).ramp
  if r.rd = r.count then x else (runOp (.rampNext a) {} x).setSp a (bufRead r.buf r.rd.toNat)

theorem waypointAdvanced_of_ready {a : Axis} (h : (x.axis a).ramp.state = .ready) :
    waypointAdvanced a x = if ((setpointAdvanced a x).axis a).ramp.rd = (x.axis a).ramp.count
      then runOp (.rampRelease a) {} (setpointAdvanced a x) else setpointAdvanced a x := if_pos h

theorem runOp_rampNext {a : Axis} (hready : (x.axis a).ramp.state = .ready)
    (hrd : (x.axis a).ramp.rd ≠ (x.axis a).ramp.count) :
    runOp (.rampNext a) {} x = ((x.mapRamp a fun r => { r with rd := r.rd + 1 }).issue (.task .ctrl) {}).respond .ok
      { w0 := bufRead (x.axis a).ramp.buf (x.axis a).ramp.rd.toNat
        w1 := (x.axis a).ramp.count - ((x.axis a).ramp.rd + 1) } := by
  rw [runOp_eq_taskOp, taskOp_of_next (exec_rampNext (issue_task_hostInRun _ _ _)),
    rampNext_of_waypoint (by simpa using hready) (by simpa using hrd)]
  simp

theorem setpointAdvanced_ramp {a : Axis} (hready : (x.axis a).ramp.state = .ready) :
    ((setpointAdvanced a x).axis a).ramp.state = .ready ∧
      ((setpointAdvanced a x).axis a).ramp.count = (x.axis a).ramp.count := by
  unfold setpointAdvanced
  dsimp only
  split_ifs with hrd
  · exact ⟨hready, rfl⟩
  · rw [runOp_rampNext hready hrd]
    simp [hready]

/-- Steps 22 and 24. -/
theorem ctrlBody_next {a : Axis} (hN : gNormal T = true) (hready : (x.axis a).ramp.state = .ready) :
    BodyRun .ctrl (22 + 2 * axisNum a) 1 x T (setpointAdvanced a x) T := by
  have ha := axisNum_le a
  have hstep (p : List Event) (o : OpPort) : bodyStep .ctrl (x.inBody .ctrl (22 + 2 * axisNum a) T p o)
      (22 + 2 * axisNum a) = some { instr := .rampNext a } := by
    rw [bodyStep, ctrlStep_next, inBody_tmp, gRamp_inBody, hN, gRamp_iff.2 hready]
    rfl
  unfold setpointAdvanced
  dsimp only
  split_ifs with hrd
  · have hnext : taskOp .ctrl (.rampNext a) {} x = (x.issue (.task .ctrl) {}).respond .empty {} := by
      rw [taskOp_of_next (exec_rampNext (issue_task_hostInRun _ _ _)),
        rampNext_of_drained (by simpa using hready) (by simpa using hrd)]
      rfl
    refine .answer (by simp [bodyLen]; omega) (by simp) hstep hnext fun p o ho _ => ?_
    simp [bodyPost, ctrlPost_next, waypointTaken, ho]
  · refine .op (o' := (runOp (.rampNext a) {} x).op) (by simp [bodyLen]; omega) hstep (fun p => ?_)
      ((taskOp_keeps (bodyStep_issues (hstep [] {})) (by simp) {} x).trans (.setAxis rfl))
    have hok : (runOp (.rampNext a) {} x).op.status = .ok := by rw [runOp_rampNext hready hrd]; rfl
    have hw : (runOp (.rampNext a) {} x).op.res.w0 = bufRead (x.axis a).ramp.buf (x.axis a).ramp.rd.toNat := by
      rw [runOp_rampNext hready hrd]; rfl
    rw [← runOp_eq_taskOp, bodyPost, ctrlPost_next, waypointTaken, inBody_op, if_pos hok, hw]
    simp

/-- The waypoint advance of one axis. -/
theorem ctrlBody_waypoint (a : Axis) (hN : gNormal T = true) :
    BodyRun .ctrl (22 + 2 * axisNum a) 2 x T (waypointAdvanced a x) T := by
  have ha := axisNum_le a
  by_cases hready : (x.axis a).ramp.state = .ready
  · obtain ⟨hst, hcount⟩ := setpointAdvanced_ramp hready
    rw [waypointAdvanced_of_ready hready]
    have hdrain := BodyRun.ctrlGuarded (x := setpointAdvanced a x) (T := T) (k := 22 + 2 * axisNum a + 1) (by omega)
      (fun p o => by rw [ctrlStep_drained, inBody_tmp, gRamp_inBody, gDrained_inBody, hN, gRamp_iff.2 hst])
      fun s => ctrlPost_drained s a
    have hguard : (true && true && gDrained (setpointAdvanced a x) a) =
        decide (((setpointAdvanced a x).axis a).ramp.rd = (x.axis a).ramp.count) := by
      rw [gDrained, hcount]; rfl
    rw [hguard] at hdrain
    simpa only [decide_eq_true_eq] using (ctrlBody_next hN hready).trans hdrain
  · have hnot : gRamp x a .ready = false := by rwa [← Bool.not_eq_true, gRamp_iff]
    rw [show waypointAdvanced a x = x from if_neg hready]
    refine (BodyRun.skip (by simp [bodyLen]; omega) fun p o => ?_).trans
      (.skip (by simp [bodyLen]; omega) fun p o => ?_)
    · rw [bodyStep, ctrlStep_next, gRamp_inBody, hnot, Bool.and_false]; rfl
    · rw [bodyStep, ctrlStep_drained, gRamp_inBody, hnot, Bool.and_false]; rfl

/-! The controllers (R216). -/

/-- The controller on the position that was read, and its answer put to the duty slot. -/
theorem ctrlBody_pid (a : Axis) (hN : gNormal T = true) (h5 : (T.t5 == 1) = true) (hf : x.fault = false) :
    let y := runOp (.pidRun a) { w0 := T.t1, w1 := (x.axis a).sp, w2 := x.ports.tNow } x
    BodyRun .ctrl (26 + 3 * axisNum a + 1) 2 x T (y.setSlot (.duty a) { val := y.op.res.w0, valid := true })
      { T with t2 := y.op.res.w0 } := by
  intro y
  have ha := axisNum_le a
  have hrun : BodyRun .ctrl (26 + 3 * axisNum a + 1) 1 x T y { T with t2 := y.op.res.w0 } := by
    refine .ctrlOp (by omega) (fun p o => ?_) fun p => ?_
    · rw [ctrlStep_pid, inBody_tmp, hN, h5, inBody_axis, inBody_ports]
      rfl
    · simp only [ctrlPost_pid, dutyTaken, inBody_op, inBody_mapTmp]
      rfl
  have hfy : y.fault = false := hrun.keeps.fault.trans hf
  refine hrun.trans (.put (.duty a) _ (by simp [bodyLen]; omega) (fun p o => ?_) fun s => ctrlPost_duty s a)
  rw [bodyStep, ctrlStep_duty, inBody_tmp, inBody_fault, hfy]
  change guarded (gNormal T && T.t5 == 1 && true) _ _ = _
  rw [hN, h5]
  rfl

/-- The control of one axis. -/
theorem ctrlBody_control (a : Axis) (hN : gNormal T = true) (hf : x.fault = false) :
    ∃ T', gNormal T' = true ∧ BodyRun .ctrl (26 + 3 * axisNum a) 3 x T (axisControlled a x) T' := by
  have ha := axisNum_le a
  have hpos : BodyRun .ctrl (26 + 3 * axisNum a) 1 x T x (positionRead (x.slot (.pos a)) T) := by
    refine .answer (by simp [bodyLen]; omega) (by simp)
      (fun p o => by rw [bodyStep, ctrlStep_position, inBody_tmp, hN]; rfl) (taskOp_slotGet _ _ _ _) fun p o _ hr => ?_
    simp only [bodyPost, ctrlPost_position, positionTaken, inBody_op, hr, inBody_mapTmp, positionRead]
  have hN₁ : gNormal (positionRead (x.slot (.pos a)) T) = true := hN
  have h5 : ((positionRead (x.slot (.pos a)) T).t5 == 1) = (x.slot (.pos a)).valid := boolWord_beq_one _
  unfold axisControlled
  split_ifs with hvalid
  · refine ⟨_, ?_, hpos.trans (ctrlBody_pid a hN₁ (h5.trans hvalid) hf)⟩
    exact hN
  · rw [Bool.not_eq_true] at hvalid
    have hnone : BodyRun .ctrl (26 + 3 * axisNum a + 1) 2 x (positionRead (x.slot (.pos a)) T) x
        (positionRead (x.slot (.pos a)) T) := by
      refine (BodyRun.skip (by simp [bodyLen]; omega) fun p o => ?_).trans
        (.skip (by simp [bodyLen]; omega) fun p o => ?_)
      · rw [bodyStep, ctrlStep_pid, inBody_tmp, h5, hvalid, Bool.and_false]
        rfl
      · rw [bodyStep, ctrlStep_duty, inBody_tmp, h5, hvalid, Bool.and_false]
        rfl
    exact ⟨_, hN₁, hpos.trans hnone⟩

end

/-- The normal section of a body. -/
theorem ctrlBody_normal {x : State} (hf : x.fault = false) (hh : homeRequested x = false) (T : Temps) :
    ∃ T', BodyRun .ctrl 0 32 x T (normalSection x) T' := by
  have hN : gNormal (ctrlLatched x T) = true := by simp [hf, hh]
  have hskip : BodyRun .ctrl 1 9 x (ctrlLatched x T) x (ctrlLatched x T) :=
    .skip_section 9 (by simp) (by simp) (by simp [hf]) (by simp [hh]) (by simp)
  obtain ⟨T₁, hN₁, hfetch⟩ := ctrlBody_fetch (x := x) hN (by simp)
  have hhead := ((ctrlBody_latch x T).trans hskip).trans hfetch
  have hway := (hhead.trans (ctrlBody_waypoint .A hN₁)).trans (ctrlBody_waypoint .B hN₁)
  obtain ⟨T₂, hN₂, hA⟩ := ctrlBody_control .A hN₁ (hway.keeps.fault.trans hf)
  obtain ⟨T₃, -, hB⟩ := ctrlBody_control .B hN₂ ((hway.trans hA).keeps.fault.trans hf)
  exact ⟨T₃, (hway.trans hA).trans hB⟩

/-- Settles O40: the steps in their order, each row of them with the effect of its part of `normalSection`. -/
theorem controlBodyNormalSection : Obligations.ControlBodyNormalSection := by
  intro s rest hu h0 hp hf hh
  obtain ⟨T, hrun⟩ := ctrlBody_normal (x := afterTaking s rest) hf (by rwa [homeRequested, afterTaking_slot])
    (s.task .ctrl).tmp
  obtain ⟨t, hsteps, hpend, hready, htstep, -, -, -, hframe⟩ := hrun.ends rfl hu h0 hp
  exact ⟨t, hsteps, hpend, hready, htstep, hframe⟩

end Sys2Proof.Machine

/-! ### The system and configuration operations (spec/46_sys_cfg.md R230 to R238) -/

namespace Sys2Proof.Machine

open Sys2Proof Host

/-! #### What their updates leave -/

theorem Frame.setSchedEn (s : State) (b : Bool) : Frame { reg := [.ctrl] } s (s.setSchedEn b) := by
  constructor
  case reg => intro r _ hr; simp [show r ≠ .ctrl by simpa using hr]
  all_goals simp

theorem Frame.setFault (s : State) (b : Bool) : Frame { reg := [.ctrl] } s (s.setFault b) := by
  constructor
  case reg => intro r _ hr; simp [show r ≠ .ctrl by simpa using hr]
  all_goals simp

theorem startTask_frame (s : State) (u : TaskId) : Frame { reg := [.wake u, .tstat u] } s (startTask s u) :=
  .setTask (by simp) rfl (.inl (by simp)) (.inr rfl)

theorem stopTask_frame (s : State) (u : TaskId) : Frame { reg := [.tstat u] } s (stopTask s u) :=
  .setTask (by simp) rfl (.inr rfl) (.inr rfl)

/-! #### NOP (R230) and reset (R231, R280, R281) -/

/-- Settles O20: a response and nothing else. -/
theorem nopChangesNothing : Obligations.NopChangesNothing := fun s =>
  ⟨_, rfl, ⟨rfl, rfl⟩, (Frame.refl _ s).respond _ _⟩

/-- A pulse on `rst` is the reset of the registers. -/
theorem step_reset {s : State} {rest : List Event} (h : s.pending = .reset :: rest) :
    step s = .next (afterTaking s rest).restart := by
  rw [step, stepEvent, nextEvent_of_pending h, takeEvent_of_pending h, applyEvent]

/-- The registers, the buffers, the temporaries, the FIFO and the outputs after reset (R281). -/
theorem restart_zeroes (s : State) :
    (∀ r, r ≠ .params → readReg s.restart r = 0) ∧
      (∀ a i, bufRead (s.restart.axis a).ramp.buf i = zeroF) ∧ (∀ u, (s.restart.task u).tmp = {}) ∧
      s.restart.fifo = [] ∧
      (∀ a, (s.restart.axis a).dutyOut = zeroF ∧ (s.restart.axis a).dutyStb = false) :=
  ⟨fun r hr => by rw [readReg_restart, if_neg hr], by simp [bufRead], by simp, rfl, by simp⟩

/-- Settles O9: `SYS.RESET` and `rst` do the one update of reset; `SYS.RESET` then answers. -/
theorem resetRestoresEveryRegister : Obligations.ResetRestoresEveryRegister := by
  intro s rest
  constructor
  · obtain ⟨hreg, hbuf, -, hfifo, -⟩ := restart_zeroes s
    exact ⟨s.restart.respond .ok {}, rfl, ⟨rfl, rfl⟩, by simpa using hreg, by simpa using hbuf, by simp, hfifo,
      by simp, rfl, rfl, rfl, rfl⟩
  · intro hp
    obtain ⟨hreg, hbuf, htmp, hfifo, hduty⟩ := restart_zeroes (afterTaking s rest)
    exact ⟨_, step_reset hp, hreg, hbuf, htmp, hfifo, hduty, rfl, rfl, rfl, rfl⟩

/-! #### SYS.START and SYS.STOP (R232, R233) -/

theorem mem_taskList (u : TaskId) : u ∈ taskList := by
  revert u
  rw [forall_task]
  simp [taskList]

theorem startRefused_iff {s : State} :
    startRefused s = true ↔ (∃ u, (s.task u).period = 0) ∨ ∃ a, (s.axis a).ramp.state = .allocated := by
  have hperiod : (taskList.any fun u => (s.task u).period == 0) = true ↔ ∃ u, (s.task u).period = 0 := by
    simp [List.any_eq_true, mem_taskList]
  have haxis : (∃ a, (s.axis a).ramp.state = .allocated) ↔
      (s.axis .A).ramp.state = .allocated ∨ (s.axis .B).ramp.state = .allocated :=
    ⟨fun ⟨a, h⟩ => by cases a <;> simp [h], fun h => h.elim (⟨.A, ·⟩) (⟨.B, ·⟩)⟩
  simp only [startRefused, Bool.or_eq_true, hperiod, haxis, beq_iff_eq, or_assoc]

theorem sysStart_of_run {s : State} (h : s.schedEn = true) : sysStart s = s.respond .ok {} := if_pos h

theorem sysStart_of_refused {s : State} (hmode : s.schedEn = false) (h : startRefused s = true) :
    sysStart s = s.rejectDenied := by simp [sysStart, hmode, h]

theorem sysStart_of_ready {s : State} (hmode : s.schedEn = false) (h : startRefused s = false) :
    sysStart s = ((taskList.foldl startTask (s.setTime 0)).setSchedEn true).respond .ok {} := by
  simp [sysStart, hmode, h]

theorem start_frame (s : State) :
    Frame { reg := .ctrl :: .schedTime :: (taskList.map .wake ++ taskList.map .tstat) } s
      ((taskList.foldl startTask (s.setTime 0)).setSchedEn true) := by
  refine Frame.trans (t := s.setTime 0) ?_ (Frame.trans (t := taskList.foldl startTask (s.setTime 0)) ?_ ?_)
  · exact (Frame.setTime s 0).mono (by simp) (by simp) (by simp) (by simp) (by simp)
  · exact .foldl (fun u hu x => (startTask_frame x u).mono (by simp [hu]) (by simp) (by simp) (by simp) (by simp)) _
  · exact (Frame.setSchedEn _ true).mono (by simp) (by simp) (by simp) (by simp) (by simp)

/-- Settles O21: the three cases of the rule of `SYS.START`. -/
theorem startReleasesEveryTask : Obligations.StartReleasesEveryTask := by
  have hexec (s : State) : exec .sysStart s = .next (sysStart s) := rfl
  intro s
  rw [hexec]
  refine ⟨fun hrun => ?_, fun hmode h => ?_, fun hmode hperiod hstate => ?_⟩
  · rw [sysStart_of_run hrun]
    exact ⟨_, rfl, ⟨rfl, rfl⟩, (Frame.refl _ s).respond _ _⟩
  · rw [sysStart_of_refused hmode (startRefused_iff.2 h)]
    exact ⟨_, rfl, reject_flag s .denied .denied⟩
  · have hready : startRefused s = false := by
      rw [← Bool.not_eq_true, startRefused_iff]
      rintro (⟨u, hu⟩ | ⟨a, ha⟩)
      · exact hperiod u hu
      · exact hstate a ha
    have hrest := foldl_startTask_rest (s.setTime 0)
    rw [sysStart_of_ready hmode hready]
    exact ⟨_, rfl, ⟨rfl, rfl⟩, rfl, hrest.fault, hrest.schedTime, by simp [foldl_startTask_task],
      (start_frame s).respond _ _⟩

theorem stop_frame (s : State) :
    Frame { reg := .ctrl :: taskList.map .tstat } s (taskList.foldl stopTask (s.setSchedEn false)) := by
  refine Frame.trans (t := s.setSchedEn false) ?_ (.foldl (fun u hu x => ?_) _)
  · exact (Frame.setSchedEn s false).mono (by simp) (by simp) (by simp) (by simp) (by simp)
  · exact (stopTask_frame x u).mono (by simp [hu]) (by simp) (by simp) (by simp) (by simp)

/-- Settles O22: the mode bit, then each task's `READY` and `tstep`. -/
theorem stopAbandonsEveryBody : Obligations.StopAbandonsEveryBody := by
  intro s
  have hrest := foldl_stopTask_rest (s.setSchedEn false)
  exact ⟨_, rfl, ⟨rfl, rfl⟩, hrest.schedEn, hrest.fault, by simp [foldl_stopTask_task],
    (stop_frame s).respond _ _⟩

/-! #### The fault state (R234, R235) -/

theorem enterFault_frame (s : State) :
    Frame { reg := .ctrl :: (slotRegs (.duty .A) ++ slotRegs (.duty .B)) } s s.enterFault :=
  Frame.trans ((Frame.setFault s true).mono (by simp) (by simp) (by simp) (by simp) (by simp))
    ((dutiesZeroed_frame _).mono (fun _ hr => List.mem_cons_of_mem _ hr) (by simp) (by simp) (by simp) (by simp))

theorem leaveFault_frame (s : State) :
    Frame { reg := .ctrl :: (pidStateRegs .A ++ pidStateRegs .B) } s s.leaveFault := by
  refine Frame.trans (t := s.setFault false) ?_ (Frame.trans (t := (s.setFault false).mapPid .A pidCleared) ?_ ?_)
  · exact (Frame.setFault s false).mono (by simp) (by simp) (by simp) (by simp) (by simp)
  · exact (Frame.mapPid_pidCleared .A _).mono (by simp +contextual) (by simp) (by simp) (by simp) (by simp)
  · exact (Frame.mapPid_pidCleared .B _).mono (by simp +contextual) (by simp) (by simp) (by simp) (by simp)

/-- Both controllers are in the initial state after the exit (R164). -/
theorem readReg_leaveFault {s : State} {a : Axis} {r : Reg} (h : r ∈ pidStateRegs a) :
    readReg s.leaveFault r = 0 := by
  rw [← readReg_mapPid_pidCleared a s h]
  obtain ⟨q, rfl⟩ : ∃ q, r = .axis a q := by
    simp only [pidStateRegs, List.mem_cons, List.not_mem_nil, or_false] at h
    obtain rfl | rfl | rfl | rfl | rfl | rfl := h <;> exact ⟨_, rfl⟩
  simp [readReg, leaveFault_axis]

/-- Settles O23: neither operation asks for the issuer or the mode, and each is its one update with a response. -/
theorem faultStateEntryAndExit : Obligations.FaultStateEntryAndExit := by
  intro s
  constructor
  · exact ⟨_, rfl, ⟨rfl, rfl⟩, by simp [State.enterFault], by simp [State.enterFault],
      (dutySlotsZero_congr fun l => respond_slot _ _ _ l).trans (dutiesZeroed_dutySlotsZero _),
      (enterFault_frame s).respond _ _⟩
  · exact ⟨_, rfl, ⟨rfl, rfl⟩, by simp [State.leaveFault], by simp [State.leaveFault],
      fun a r hr => by rw [readReg_respond, readReg_leaveFault hr], (leaveFault_frame s).respond _ _⟩

/-! #### CFG.RD (R236): the layout of the words made of fields (R24, R26, R28, R64) -/

theorem boolWord_toNat (b : Bool) : (boolWord b).toNat = b.toNat := by cases b <;> rfl

theorem u16Word_toNat (h : Half) : (u16Word h).toNat = h.toNat :=
  BitVec.toNat_setWidth_of_le (by decide)

/-- Two fields of a word that do not overlap add up. -/
theorem toNat_or_shiftLeft {lo hi : Word} {k : Nat} (hlo : lo.toNat < 2 ^ k) (hhi : 2 ^ k * hi.toNat < 2 ^ 32) :
    (lo ||| hi <<< k).toNat = lo.toNat + 2 ^ k * hi.toNat := by
  rw [BitVec.toNat_or, BitVec.toNat_shiftLeft, Nat.shiftLeft_eq, Nat.mul_comm, Nat.mod_eq_of_lt hhi, Nat.or_comm,
    ← Nat.two_pow_add_eq_or_of_lt hlo, Nat.add_comm]

theorem ctrlWord_toNat (s : State) : (ctrlWord s).toNat = s.schedEn.toNat + 2 * s.fault.toNat := by
  have hmode := Bool.toNat_le s.schedEn
  have hfault := Bool.toNat_le s.fault
  rw [ctrlWord, toNat_or_shiftLeft] <;> simp only [boolWord_toNat] <;> omega

theorem tstatWord_toNat (r : TaskRegs) : (tstatWord r).toNat = r.ready.toNat + 2 ^ 8 * r.tstep.toNat := by
  have hready := Bool.toNat_le r.ready
  have hstep := r.tstep.isLt
  have hword : (r.tstep.setWidth 32).toNat = r.tstep.toNat := BitVec.toNat_setWidth_of_le (by decide)
  rw [tstatWord, toNat_or_shiftLeft] <;> simp only [boolWord_toNat, hword] <;> omega

theorem cmdFifoDepth_le {p : Params} (h : p.wellFormed = true) : p.cmdFifoDepth ≤ 255 := by
  simp only [Params.wellFormed, Bool.and_eq_true, decide_eq_true_eq] at h
  obtain ⟨⟨⟨⟨-, hdepth⟩, -⟩, -⟩, -⟩ := h
  exact hdepth

/-- The low two fields of `PARAMS`. -/
theorem paramsWord_low_toNat {p : Params} (h : p.wellFormed = true) :
    ((BitVec.ofNat 8 p.cmdFifoDepth).setWidth 32 ||| ((BitVec.ofNat 9 p.rampCap).setWidth 32 <<< 8)).toNat =
      p.cmdFifoDepth + 2 ^ 8 * p.rampCap := by
  have hdepth := cmdFifoDepth_le h
  have hcap := rampCap_le h
  have hdepthWord : ((BitVec.ofNat 8 p.cmdFifoDepth).setWidth 32).toNat = p.cmdFifoDepth := by
    simp only [BitVec.toNat_setWidth, BitVec.toNat_ofNat]; omega
  have hcapWord : ((BitVec.ofNat 9 p.rampCap).setWidth 32).toNat = p.rampCap := by
    simp only [BitVec.toNat_setWidth, BitVec.toNat_ofNat]; omega
  rw [toNat_or_shiftLeft] <;> simp only [hdepthWord, hcapWord] <;> omega

theorem paramsWord_toNat {p : Params} (h : p.wellFormed = true) : (paramsWord p).toNat =
    p.cmdFifoDepth + 2 ^ 8 * p.rampCap + 2 ^ 24 * (decide (p.fullPolicy = .dropOldest)).toNat := by
  have hdepth := cmdFifoDepth_le h
  have hcap := rampCap_le h
  have hlow := paramsWord_low_toNat h
  unfold paramsWord
  cases p.fullPolicy with
  | reject => simpa using hlow
  | dropOldest =>
    have hpolicy : (0x01000000#32 : Word) = 1#32 <<< 24 := rfl
    dsimp only
    rw [hpolicy, toNat_or_shiftLeft (by omega) (by decide), hlow]
    rfl

theorem exec_cfgRd (addr : RegAddr) (s : State) : exec (.cfgRd addr) s = .next (cfgRd addr s) := rfl

theorem cfgRd_of_mapped {addr : RegAddr} {s : State} {r : Reg} (h : regAt s.params addr = some r) :
    cfgRd addr s = s.respond .ok { w0 := readReg s r } := by simp only [cfgRd, h]

theorem cfgRd_of_unmapped {addr : RegAddr} {s : State} (h : regAt s.params addr = none) :
    cfgRd addr s = s.rejectIllegal := by simp only [cfgRd, h]

/-- Settles O24: the answer by the register map, and the layout of each word that is not a register as it stands. -/
theorem cfgReadAnswersTheRegister : Obligations.CfgReadAnswersTheRegister := by
  intro addr s
  rw [exec_cfgRd]
  refine ⟨fun r hr => ?_, fun hr => ?_, ctrlWord_toNat s, fun hwf => ?_, fun u => tstatWord_toNat _,
    BitVec.toNat_setWidth_of_le (by decide), fun k => boolWord_toNat _, fun hwf hlen => ?_, fun a => ?_⟩
  · rw [cfgRd_of_mapped hr]
    exact ⟨_, rfl, ⟨rfl, rfl⟩, (Frame.refl _ s).respond _ _⟩
  · rw [cfgRd_of_unmapped hr]
    exact ⟨_, rfl, reject_flag s .illegal .illegal⟩
  · rw [readReg, paramsWord_toNat hwf]
    cases s.params.fullPolicy <;> rfl
  · exact u32Word_toNat (hlen.trans_lt ((cmdFifoDepth_le hwf).trans_lt (by decide)))
  · refine ⟨u16Word_toNat _, u16Word_toNat _, boolWord_toNat _, u16Word_toNat _, u16Word_toNat _,
      boolWord_toNat _, ?_⟩
    rw [readReg, readAxisReg]
    cases (s.axis a).ramp.state <;> rfl

/-! #### CFG.WR (R237) by the class of the register (R23) -/

theorem exec_cfgWr {addr : RegAddr} {s : State} (h : s.hostInRun = false ∨ addr = 0x001) :
    exec (.cfgWr addr) s = .next (cfgWr addr s) := by
  have hexec : exec (.cfgWr addr) s = .next (if addr = 0x001 then cfgWr addr s else s.ownerOnly (cfgWr addr)) := rfl
  rw [hexec]
  by_cases haddr : addr = 0x001
  · rw [if_pos haddr]
  · rw [if_neg haddr, ownerOnly_allowed _ (h.resolve_right haddr)]

section
variable {addr : RegAddr} {s : State} {r : Reg}

theorem cfgWr_of_unmapped (h : regAt s.params addr = none) : cfgWr addr s = s.rejectIllegal := by
  simp only [cfgWr, h]

theorem cfgWr_of_flags (h : regAt s.params addr = some .flags) :
    cfgWr addr s = (s.setFlags (clearFlagBits s.flags s.op.args.w0)).respond .ok {} := by
  simp only [cfgWr, h, regClass]

theorem cfgWr_of_ro (h : regAt s.params addr = some r) (hr : regClass r = .ro) :
    cfgWr addr s = s.rejectDenied := by
  simp only [cfgWr, h, hr]

theorem cfgWr_of_cfg (h : regAt s.params addr = some r) (hr : regClass r = .cfg) :
    cfgWr addr s = (writeCfgReg s r s.op.args.w0).respond .ok {} := by
  simp only [cfgWr, h, hr]

end

/-- Write-one-to-clear, bit by bit (R22). -/
theorem getLsbD_clearFlagBits (f : Half) (w : Word) (n : Nat) :
    (clearFlagBits f w).getLsbD n = (f.getLsbD n && !w.getLsbD n) := by
  by_cases hn : n < 16
  · simp [clearFlagBits, argU16, hn]
  · simp [BitVec.getLsbD_of_ge, Nat.le_of_not_lt hn]

/-- Every bit of `FLAGS` is a flag's (R22). -/
theorem exists_flagBit {n : Nat} (h : n < 16) : ∃ g ∈ allFlags, flagBit g = n := by
  revert n
  decide

theorem Frame.setFlags (s : State) (f : Half) : Frame { flag := allFlags } s (s.setFlags f) := by
  constructor
  case reg => intro r hr _; simp [hr]
  case flag =>
    intro n hn
    have hge : 16 ≤ n := by
      by_contra hlt
      obtain ⟨g, hg, hbit⟩ := exists_flagBit (Nat.lt_of_not_le hlt)
      exact hn g hg hbit
    rw [BitVec.getLsbD_of_ge _ _ hge, BitVec.getLsbD_of_ge _ _ hge]
  all_goals simp

theorem writeAxisReg_duty (x : AxisRegs) (which : AxisReg) (v : Word) :
    (writeAxisReg x which v).dutyOut = x.dutyOut ∧ (writeAxisReg x which v).dutyStb = x.dutyStb := by
  cases which <;> exact ⟨rfl, rfl⟩

theorem Frame.writeCfgReg (s : State) (r : Reg) (v : Word) : Frame { reg := [r] } s (writeCfgReg s r v) := by
  have hread (q : Reg) (hq : q ∉ [r]) : readReg (Machine.writeCfgReg s r v) q = readReg s q :=
    readReg_writeCfgReg_of_ne v (by simpa using hq)
  cases r with
  | period u =>
    constructor
    case reg => exact fun q _ => hread q
    case tmp => intro t _; by_cases ht : t = u <;> simp [Machine.writeCfgReg, ht]
    all_goals simp [Machine.writeCfgReg]
  | axis a which =>
    constructor
    case reg => exact fun q _ => hread q
    case duty =>
      intro b _
      by_cases hb : b = a
      · subst hb; simpa [Machine.writeCfgReg] using writeAxisReg_duty _ which v
      · simp [Machine.writeCfgReg, hb]
    all_goals simp [Machine.writeCfgReg]
  | _ => exact .refl _ s

theorem readAxisReg_writeAxisReg_self {x : AxisRegs} {which : AxisReg} {v : Word}
    (hcfg : axisRegIsCfg which = true) (hne : which ≠ .encInverted) :
    readAxisReg (writeAxisReg x which v) which = v := by
  cases which with
  | encInverted => exact absurd rfl hne
  | encOvfBound | encTpr | encMmpr | kp | ki | kd | deadbandPct | satLow | satHigh | derivTau | integralMax
  | rampSlice => rfl
  | _ => cases hcfg

/-- A configuration register reads back the word as given, but for `ENC_INVERTED`. -/
theorem readReg_writeCfgReg_self {s : State} {r : Reg} (v : Word) (hr : regClass r = .cfg)
    (hne : ∀ a, r ≠ .axis a .encInverted) : readReg (writeCfgReg s r v) r = v := by
  cases r with
  | period u => simp [writeCfgReg]
  | axis a which =>
    have hwhich : which ≠ .encInverted := fun h => hne a (h ▸ rfl)
    simpa [writeCfgReg] using readAxisReg_writeAxisReg_self (axisRegIsCfg_of_regClass hr) hwhich
  | _ => cases hr

/-- `ENC_INVERTED` keeps bit 0 only. -/
theorem readReg_writeCfgReg_encInverted (s : State) (a : Axis) (v : Word) :
    readReg (writeCfgReg s (.axis a .encInverted) v) (.axis a .encInverted) = if v.getLsbD 0 then 1 else 0 := by
  simp [writeCfgReg, writeAxisReg, readAxisReg, boolWord, argBool]

/-- Settles O25: the four cases of the rule of `CFG.WR`. -/
theorem cfgWriteStoresByClass : Obligations.CfgWriteStoresByClass := by
  intro addr s hallowed
  rw [exec_cfgWr hallowed]
  refine ⟨fun h => ?_, fun h => ?_, fun r h hr => ?_, fun r h hr => ?_⟩
  · rw [cfgWr_of_unmapped h]
    exact ⟨_, rfl, reject_flag s .illegal .illegal⟩
  · rw [cfgWr_of_flags h]
    exact ⟨_, rfl, ⟨rfl, rfl⟩, getLsbD_clearFlagBits _ _, (Frame.setFlags s _).respond _ _⟩
  · rw [cfgWr_of_ro h hr]
    exact ⟨_, rfl, reject_flag s .denied .denied⟩
  · rw [cfgWr_of_cfg h hr]
    refine ⟨_, rfl, ⟨rfl, rfl⟩, fun hne => ?_, fun a ha => ?_, (Frame.writeCfgReg s r _).respond _ _⟩
    · rw [readReg_respond, readReg_writeCfgReg_self _ hr hne]
    · subst ha
      rw [readReg_respond, readReg_writeCfgReg_encInverted]

/-! #### The duty slots in the fault state (R234, R216, R255) -/

theorem dutySlotsZero_iff {s : State} :
    s.dutySlotsZero = true ↔ ∀ a, s.slot (.duty a) = { val := zeroF, valid := true } := by
  simp only [State.dutySlotsZero, Bool.and_eq_true, beq_iff_eq]
  exact ⟨fun ⟨hA, hB⟩ a => by cases a <;> assumption, fun h => ⟨h .A, h .B⟩⟩

/-- The operations that write a duty slot: reset, the entry into the fault state, a put to it. -/
theorem Effect.dutySlot_cases {s x : State} {i : Instr} (h : Effect s i x) (a : Axis) :
    x.slot (.duty a) = s.slot (.duty a) ∨ (i = .sysReset ∧ x.schedEn = false) ∨
      (i = .sysFault ∧ x.slot (.duty a) = { val := zeroF, valid := true }) ∨
      (i = .slotPut (.duty a) ∧ x.slot (.duty a) = { val := s.op.args.w0, valid := true }) := by
  cases h with
  | reset => exact .inr (.inl ⟨rfl, rfl⟩)
  | fault => exact .inr (.inr (.inl ⟨rfl, by rw [enterFault_slot]; cases a <;> simp⟩))
  | put k =>
    by_cases hk : k = .duty a
    · subst hk
      exact .inr (.inr (.inr ⟨rfl, by simp [slotStored]⟩))
    · exact .inl (by simp [Ne.symm hk])
  | start => exact .inl ((foldl_startTask_rest _).slot _)
  | stop => exact .inl ((foldl_stopTask_rest _).slot _)
  | clrfault => exact .inl (by simp [State.leaveFault])
  | @config _ r => exact .inl (by cases r <;> simp [writeCfgReg])
  | _ => exact .inl (by simp)

/-- In the fault state the body of `CTRL` puts +0.0 alone to a duty slot: its steps 28 and 31 are guarded by the fault
bit as it stands, not by the one latched at step 0 (R216). -/
theorem ctrlStep_duty_zero {s : State} {k : Nat} {o : TaskOp} {a : Axis} (h : ctrlStep s k = some o)
    (ho : o.instr = .slotPut (.duty a)) (hf : s.fault = true) : o.args.w0 = zeroF := by
  unfold ctrlStep at h
  dsimp only at h
  split at h <;>
    first
    | (cases h; done)
    | (obtain ⟨-, rfl⟩ := guarded_some h; cases ho; done)
    | (obtain ⟨-, rfl⟩ := guarded_some h; rfl)
    | (obtain ⟨hg, -⟩ := guarded_some h; simp [hf] at hg)

theorem bodyStep_duty_zero {u : TaskId} {s : State} {k : Nat} {o : TaskOp} {a : Axis}
    (h : bodyStep u s k = some o) (ho : o.instr = .slotPut (.duty a)) (hf : s.fault = true) : o.args.w0 = zeroF := by
  obtain rfl : u = .ctrl := by simpa [TaskIssues, opOwner, ho, eq_comm] using bodyStep_issues h
  exact ctrlStep_duty_zero h ho hf

/-- A step of a task in the fault state. -/
theorem taskStep_dutySlot {s t : State} {u : TaskId} (he : nextEvent s = .taskStep) (hu : runningTask s = some u)
    (h : step s = .next t) (hf : s.fault = true) (a : Axis) :
    t.slot (.duty a) = s.slot (.duty a) ∨ t.slot (.duty a) = { val := zeroF, valid := true } := by
  have hpost (k : Nat) (x : State) : (bodyPost u k x).slot (.duty a) = x.slot (.duty a) := by
    obtain hp | ⟨f, hp⟩ | ⟨-, b, w, hp⟩ := bodyPost_cases u k x <;> rw [hp] <;> simp
  obtain ⟨-, -, efault, -, -, -, -, -, -, -, -, eslot⟩ := takeEvent_fields s
  obtain rfl | ⟨o, x, st, r, ho, hx, rfl⟩ := taskStep_cases he hu h
  · exact .inl (((finishStep_rest u _ _).slot _).trans (eslot _))
  · rw [(finishStep_rest u _ _).slot, hpost, respond_slot]
    have hi := bodyStep_issues ho
    obtain hkeep | ⟨hreset, -⟩ | ⟨hfault, -⟩ | ⟨hput, hslot⟩ := hx.dutySlot_cases a
    · exact .inl (hkeep.trans ((issue_slot _ _ _ _).trans (eslot _)))
    · simp [hreset, TaskIssues, opOwner] at hi
    · simp [hfault, TaskIssues, opOwner] at hi
    · have hzero := bodyStep_duty_zero ho hput (efault.trans hf)
      exact .inr (hslot.trans (by rw [issue_op, hzero]))

/-- A transaction of the host in run mode that leaves the block there: the puts to a duty slot are denied (R260). -/
theorem exec_dutySlot_of_host_in_run {s t : State} {i : Instr} (h : exec i s = .next t) (hrun : s.hostInRun = true)
    (ht : t.schedEn = true) (a : Axis) :
    t.slot (.duty a) = s.slot (.duty a) ∨ t.slot (.duty a) = { val := zeroF, valid := true } := by
  obtain ⟨x, st, r, hx, rfl⟩ := exec_effect h
  obtain hkeep | ⟨-, hmode⟩ | ⟨-, hzero⟩ | ⟨rfl, -⟩ := hx.dutySlot_cases a
  · exact .inl hkeep
  · rw [respond_schedEn, hmode] at ht
    cases ht
  · exact .inr hzero
  · have hdenied := Outcome.next.inj ((exec_of_host_in_run (u := .ctrl) hrun rfl).symm.trans h)
    rw [← hdenied]
    exact .inl (by simp [State.rejectDenied, State.reject])

theorem tickEvent_slot (s : State) (l : Slot) : (tickEvent s).slot l = s.slot l := by
  unfold tickEvent
  split
  · obtain ⟨-, -, -, -, -, hslot⟩ := foldl_tickTask_rest taskList (s.setTime (s.schedTime + 1))
    exact hslot l
  · rfl

/-- Settles O56: in run mode and the fault state a step keeps a duty slot or puts +0.0 to it. -/
theorem faultStateKeepsTheDutySlotsAtZeroInRunMode :
    Obligations.FaultStateKeepsTheDutySlotsAtZeroInRunMode := by
  intro s t hmode hf hzero h ht _
  rw [dutySlotsZero_iff] at hzero ⊢
  intro a
  obtain ⟨-, emode, -, -, -, -, -, -, -, -, -, eslot⟩ := takeEvent_fields s
  have hkeep : t.slot (.duty a) = s.slot (.duty a) ∨ t.slot (.duty a) = { val := zeroF, valid := true } := by
    obtain ⟨-, rfl⟩ | ⟨-, rfl⟩ | ⟨p, -, rfl⟩ | ⟨w, args, why, -, -, rfl⟩ | ⟨w, args, i, -, -, hx⟩ | ⟨-, -, rfl⟩ |
      ⟨he, u, hu, -⟩ := step_cases h
    · cases ht
    · exact .inl ((tickEvent_slot _ _).trans (eslot _))
    · exact .inl ((setPorts_slot _ _ _).trans (eslot _))
    · exact .inl (by simp [State.rejectIllegal, State.reject, eslot])
    · have hrun : ((takeEvent s).issue .host args).hostInRun = true := by simp [emode, hmode]
      simpa [eslot] using exec_dutySlot_of_host_in_run hx hrun ht a
    · exact .inl (eslot _)
    · rw [runningTask_takeEvent] at hu
      exact taskStep_dutySlot he hu h hf a
  exact hkeep.elim (·.trans (hzero a)) id

end Sys2Proof.Machine

/-! ### Modes, rights, statuses and flags (spec/60_exceptions.md R250 to R261) -/

namespace Sys2Proof.Machine

open Sys2Proof Host

/-! #### The right of the host, then the operation's own rule (R85 steps 2 and 3, R260) -/

/-- The operation's own rule: what its transaction does where the issuer has the right (R85 step 3). -/
def ownRule : Instr → State → State
  | .nop => fun s => s.respond .ok {}
  | .sysReset => fun s => s.restart.respond .ok {}
  | .sysStart => sysStart
  | .sysStop => fun s => (taskList.foldl stopTask (s.setSchedEn false)).respond .ok {}
  | .sysFault => fun s => s.enterFault.respond .ok {}
  | .sysClrfault => fun s => s.leaveFault.respond .ok {}
  | .cfgRd addr => cfgRd addr
  | .cfgWr addr => cfgWr addr
  | .encRead a => encRead a
  | .encZero a => fun s => (s.mapEnc a fun e => { e with abs := 0 }).respond .ok {}
  | .encPos a => fun s => s.respond .ok { w0 := ticksToMm (s.axis a).enc (s.axis a).enc.abs }
  | .encDpos a => fun s => s.respond .ok { w0 := ticksToMm (s.axis a).enc (s.axis a).enc.lastDelta }
  | .swRestart a => fun s => (s.mapSw a fun r => { r with last := 0, count := 0 }).respond .ok {}
  | .swLap a => swLap a
  | .kinUpdate => kinUpdate
  | .kinReset => fun s => (s.setKin {}).respond .ok {}
  | .kinFwd => fun s =>
      s.respond .ok { w0 := fwdA s.op.args.w0 s.op.args.w1, w1 := fwdB s.op.args.w0 s.op.args.w1 }
  | .kinInv => fun s =>
      s.respond .ok { w0 := invX s.op.args.w0 s.op.args.w1, w1 := invY s.op.args.w0 s.op.args.w1 }
  | .kinSeg a => kinSeg a
  | .rampLoad a => rampLoad a
  | .rampInit a => rampInit a
  | .rampGen a => rampGen a
  | .rampNext a => rampNext a
  | .rampRelease a => rampRelease a
  | .pidRun a => pidRun a
  | .pidReset a => fun s => (s.mapPid a pidCleared).respond .ok {}
  | .slotPut k => slotPut k
  | .slotGet k => fun s => s.respond .ok { w0 := (s.slot k).val, w1 := boolWord (s.slot k).valid }
  | .fifoPut => fifoPut
  | .fifoGet => fifoGet
  | .motOut a => motOut a

/-- In run mode the host is denied what the list of R260 does not name; all else runs its own rule. -/
theorem exec_eq (i : Instr) (s : State) :
    exec i s = .next (if hostMayInRun i = true then ownRule i s else s.ownerOnly (ownRule i)) := by
  cases i with
  | cfgWr addr => by_cases h : addr = 0x001 <;> simp [exec, execCfgWr, ownRule, hostMayInRun, h]
  | slotPut k => by_cases h : k = .homeReq <;> simp [exec, execSlotPut, ownRule, hostMayInRun, h]
  | _ => rfl

/-- An allowed operation runs its own rule. -/
theorem exec_of_allowed {i : Instr} {s : State} (h : hostMayInRun i = true ∨ s.hostInRun = false) :
    exec i s = .next (ownRule i s) := by
  rw [exec_eq]
  split
  case isTrue => rfl
  case isFalse hmay => rw [ownerOnly_allowed _ (h.resolve_left hmay)]

theorem exec_of_denied {i : Instr} {s : State} (hrun : s.hostInRun = true) (hmay : hostMayInRun i = false) :
    exec i s = .next s.rejectDenied := by
  rw [exec_eq, if_neg (Bool.eq_false_iff.1 hmay), ownerOnly_denied _ hrun]

/-- Settles O12: the check of rights is a refusal. -/
theorem hostIsHeldToItsRightsInRunMode : Obligations.HostIsHeldToItsRightsInRunMode :=
  fun _ s hrun hmay => ⟨_, exec_of_denied hrun hmay, reject_flag s .denied .denied⟩

/-! #### Every event ends in a next state (R254) -/

theorem hostTransaction_next (w : Word) (args : Words5) (s : State) :
    ∃ t, hostTransaction w args s = .next t := by
  unfold hostTransaction
  split
  case h_1 => exact ⟨_, rfl⟩
  case h_2 i _ => exact ⟨_, exec_eq i _⟩

theorem taskTransaction_next (u : TaskId) (k : Nat) (s : State) :
    ∃ t, taskTransaction u k s = .next t := by
  cases h : bodyStep u s k with
  | none => exact ⟨_, taskTransaction_of_none h⟩
  | some o => exact ⟨_, taskTransaction_of_some h (exec_eq o.instr _)⟩

theorem applyEvent_next (e : Event) (s : State) : ∃ t, applyEvent e s = .next t := by
  cases e with
  | reset | tick | drive p => exact ⟨_, rfl⟩
  | host w args => exact hostTransaction_next w args s
  | taskStep =>
    unfold applyEvent taskStepEvent
    dsimp only
    split
    case h_1 => exact ⟨s, rfl⟩
    case h_2 u _ => exact taskTransaction_next u _ s

/-- Settles O8: the denial or the own rule of every operation is a next state, and so every event ends in one. -/
theorem nothingTraps : Obligations.NothingTraps :=
  ⟨fun i s => ⟨_, exec_eq i s⟩, fun s => applyEvent_next (nextEvent s) (takeEvent s)⟩

/-! #### The mode (R259) -/

/-- The operations that move the mode. -/
theorem Effect.mode_cases {s x : State} {i : Instr} (h : Effect s i x) :
    x.schedEn = s.schedEn ∨
      (i = .sysReset ∨ (i = .sysStart ∧ x.schedEn = true) ∨ (i = .sysStop ∧ x.schedEn = false)) := by
  cases h with
  | reset => exact .inr (.inl rfl)
  | start => exact .inr (.inr (.inl ⟨rfl, rfl⟩))
  | stop => exact .inr (.inr (.inr ⟨rfl, (foldl_stopTask_rest _).schedEn⟩))
  | fault => left; simp [State.enterFault]
  | clrfault => left; simp [State.leaveFault]
  | config => exact .inl (writeCfgReg_schedEn _ _ _)
  | _ => left; simp

/-- A step of a task keeps the mode. -/
theorem taskStep_schedEn {s t : State} {u : TaskId} (he : nextEvent s = .taskStep)
    (hu : runningTask s = some u) (h : step s = .next t) : t.schedEn = (takeEvent s).schedEn := by
  obtain rfl | ⟨o, x, st, r, ho, hx, rfl⟩ := taskStep_cases he hu h
  · exact (finishStep_rest u _ _).schedEn
  · calc (finishStep u _ (bodyPost u _ (x.respond st r))).schedEn
        = (bodyPost u _ (x.respond st r)).schedEn := (finishStep_rest u _ _).schedEn
      _ = x.schedEn := (bodyPost_scheduler u _ _).1
      _ = (takeEvent s).schedEn := (hx.scheduler_of_task (bodyStep_issues ho)).1

/-- Settles O10: of the operations three move the mode, and of the other events `rst` alone. -/
theorem onlyStartStopResetChangeTheMode : Obligations.OnlyStartStopResetChangeTheMode := by
  intro s t h hne
  obtain ⟨-, emode, -⟩ := takeEvent_fields s
  rw [← emode] at hne
  obtain ⟨he, -⟩ | ⟨-, rfl⟩ | ⟨p, -, rfl⟩ | ⟨w, args, why, -, -, rfl⟩ | ⟨w, args, i, he, hw, hx⟩ | ⟨-, -, rfl⟩ |
    ⟨he, u, hu, -⟩ := step_cases h
  · exact .inl he
  · exact absurd (tickEvent_schedEn _) hne
  · exact absurd rfl hne
  · exact absurd rfl hne
  · obtain ⟨x, st, r, heff, rfl⟩ := exec_effect hx
    exact .inr ⟨w, args, i, he, hw, heff.mode_cases.resolve_left hne⟩
  · exact absurd rfl hne
  · rw [runningTask_takeEvent] at hu
    exact absurd (taskStep_schedEn he hu h) hne

/-! #### The answer of an operation: its status, its flag, its results (R250 to R254) -/

/-- A flag set, where there is one to set (R252). -/
def State.record (s : State) (g : Option Flag) : State :=
  match g with
  | some g => s.raise g
  | none => s

theorem reject_eq_record (s : State) (st : Status) (g : Option Flag) :
    s.reject st g = (s.record g).respond st {} := by cases g <;> rfl

theorem record_flag (s : State) (o : Option Flag) (g : Flag) :
    (s.record o).flag g = true ↔ s.flag g = true ∨ o = some g := by
  cases o with
  | none => simp [State.record]
  | some g' => simp [State.record, flag_raise, -State.raise, eq_comm (a := g)]

theorem record_frame (s : State) (g : Option Flag) : Frame { flag := g.toList } s (s.record g) := by
  cases g with
  | none => exact Frame.refl _ s
  | some g => exact Frame.raise s g

theorem respond_flag (s : State) (st : Status) (r : Words5) (g : Flag) : (s.respond st r).flag g = s.flag g := rfl

/-- `FIFO.PUT` meets a full FIFO and the policy has the oldest entry dropped (spec/44_slot_fifo.md R185). -/
def DropsOldest (i : Instr) (s : State) : Prop :=
  i = .fifoPut ∧ s.params.fullPolicy = .dropOldest ∧ s.params.cmdFifoDepth ≤ s.fifo.length

/-- How a transaction of `i` in `s` can end: with `OK`, and `FLAGS` as it was but for the three operations that write it
then; or with a status of the table of R251, or `DENIED` by mode, and nothing changed but the flag that records it. -/
inductive Answered (s : State) (i : Instr) : State → Prop
  | done {x : State} {r : Words5} (hdrop : ¬DropsOldest i s)
      (hflags : x.flags = s.flags ∨ i = .sysReset ∨ i = .cfgWr 0x001) : Answered s i (x.respond .ok r)
  | drops {x : State} {r : Words5} (hdrop : DropsOldest i s) (hflags : x.flags = (s.raise .fifoFull).flags) :
      Answered s i (x.respond .ok r)
  | notOk {r : Words5} (st : Status)
      (hst : st ∈ statusesBesidesOk i ∨ (s.hostInRun = true ∧ hostMayInRun i = false ∧ st = .denied))
      (hres : st ≠ .hold → r = {}) : Answered s i ((s.record (recordedFlag i st)).respond st r)

section
variable {s x : State} {i : Instr} {r : Words5}

theorem answered_ok (hflags : x.flags = s.flags) (hi : i ≠ .fifoPut := by nofun) : Answered s i (x.respond .ok r) :=
  .done (fun h => hi h.1) (.inl hflags)

theorem answered_reject {st : Status} {g : Option Flag} (hg : recordedFlag i st = g)
    (hst : st ∈ statusesBesidesOk i := by simp [statusesBesidesOk]) : Answered s i (s.reject st g) := by
  rw [reject_eq_record, ← hg]
  exact .notOk st (.inl hst) fun _ => rfl

end

theorem writeCfgReg_flags (s : State) (r : Reg) (v : Word) : (writeCfgReg s r v).flags = s.flags := by
  unfold writeCfgReg
  split <;> simp

theorem sysStart_answered (s : State) : Answered s .sysStart (sysStart s) := by
  unfold sysStart
  split_ifs
  · exact answered_ok rfl
  · exact answered_reject rfl
  · exact answered_ok (foldl_startTask_rest _).flags

theorem cfgRd_answered (addr : RegAddr) (s : State) : Answered s (.cfgRd addr) (cfgRd addr s) := by
  unfold cfgRd
  split
  · exact answered_reject rfl
  · exact answered_ok rfl

theorem cfgWr_answered (addr : RegAddr) (s : State) : Answered s (.cfgWr addr) (cfgWr addr s) := by
  unfold cfgWr
  split
  case h_1 => exact answered_reject rfl
  case h_2 r hreg =>
    split
    case h_1 hcls =>
      obtain rfl := regClass_eq_w1c hcls
      exact .done nofun (.inr (.inr (regAt_eq_flags hreg ▸ rfl)))
    case h_2 => exact answered_reject rfl
    case h_3 => exact answered_ok (writeCfgReg_flags _ _ _)

theorem kinSeg_answered (a : Axis) (s : State) : Answered s (.kinSeg a) (kinSeg a s) := by
  unfold kinSeg
  split_ifs
  · exact answered_reject rfl
  · exact answered_ok rfl

theorem rampLoad_answered (a : Axis) (s : State) : Answered s (.rampLoad a) (rampLoad a s) := by
  unfold rampLoad
  split_ifs
  · exact answered_reject rfl
  · exact answered_ok (setAxis_flags ..)

theorem rampInit_answered (a : Axis) (s : State) : Answered s (.rampInit a) (rampInit a s) := by
  unfold rampInit
  dsimp only
  split
  case isTrue => exact answered_reject rfl
  case isFalse =>
    split
    case h_1 => exact answered_reject rfl
    case h_2 =>
      split_ifs
      · exact answered_reject rfl
      · exact answered_ok (setAxis_flags ..)

theorem rampGen_answered (a : Axis) (s : State) : Answered s (.rampGen a) (rampGen a s) := by
  unfold rampGen
  split
  case h_1 => exact answered_reject rfl
  case h_2 => exact answered_reject rfl
  case h_3 => exact answered_ok (setAxis_flags ..)

theorem rampNext_answered (a : Axis) (s : State) : Answered s (.rampNext a) (rampNext a s) := by
  unfold rampNext
  dsimp only
  split_ifs
  · exact answered_reject rfl
  · exact answered_reject rfl
  · exact answered_ok (setAxis_flags ..)

/-- `HOLD` is the one status besides `OK` that comes with a result (spec/43_pid.md R163). -/
theorem pidRun_answered (a : Axis) (s : State) : Answered s (.pidRun a) (pidRun a s) := by
  unfold pidRun
  dsimp only
  split_ifs
  · exact answered_ok (setAxis_flags ..)
  · exact .notOk .hold (.inl (by simp [statusesBesidesOk])) (absurd rfl)
  · exact answered_ok (setAxis_flags ..)

theorem fifoPut_answered (s : State) : Answered s .fifoPut (fifoPut s) := by
  unfold fifoPut
  dsimp only
  split
  case isTrue hroom => exact .done (fun ⟨_, _, hfull⟩ => absurd hroom (not_lt.2 hfull)) (.inl rfl)
  case isFalse hfull =>
    split
    case h_1 => exact answered_reject rfl
    case h_2 hpol => exact .drops ⟨rfl, hpol, not_lt.1 hfull⟩ rfl

theorem fifoGet_answered (s : State) : Answered s .fifoGet (fifoGet s) := by
  unfold fifoGet
  split
  case h_1 => exact answered_reject rfl
  case h_2 => exact answered_ok rfl

theorem ownRule_answered (i : Instr) (s : State) : Answered s i (ownRule i s) := by
  cases i with
  | sysReset => exact .done nofun (.inr (.inl rfl))
  | sysStart => exact sysStart_answered s
  | sysStop => exact answered_ok (foldl_stopTask_rest _).flags
  | sysFault => exact answered_ok (by simp [State.enterFault])
  | sysClrfault => exact answered_ok (by simp [State.leaveFault])
  | cfgRd addr => exact cfgRd_answered addr s
  | cfgWr addr => exact cfgWr_answered addr s
  | kinSeg a => exact kinSeg_answered a s
  | rampLoad a => exact rampLoad_answered a s
  | rampInit a => exact rampInit_answered a s
  | rampGen a => exact rampGen_answered a s
  | rampNext a => exact rampNext_answered a s
  | pidRun a => exact pidRun_answered a s
  | fifoPut => exact fifoPut_answered s
  | fifoGet => exact fifoGet_answered s
  | slotPut k => exact answered_ok (setSlot_flags ..)
  | encRead a | encZero a | swRestart a | swLap a | rampRelease a | pidReset a | motOut a =>
    exact answered_ok (setAxis_flags ..)
  | nop | encPos a | encDpos a | kinUpdate | kinReset | kinFwd | kinInv | slotGet k => exact answered_ok rfl

/-- Every transaction ends in an answer. -/
theorem exec_answered {i : Instr} {s t : State} (h : exec i s = .next t) : Answered s i t := by
  by_cases hallowed : hostMayInRun i = true ∨ s.hostInRun = false
  · obtain rfl := Outcome.next.inj ((exec_of_allowed hallowed).symm.trans h)
    exact ownRule_answered i s
  · obtain ⟨hmay, hrun⟩ : hostMayInRun i = false ∧ s.hostInRun = true := by simpa using hallowed
    obtain rfl := Outcome.next.inj ((exec_of_denied hrun hmay).symm.trans h)
    exact .notOk .denied (.inr ⟨hrun, hmay, rfl⟩) fun _ => rfl

/-- Settles O16: the statuses of the answers. -/
theorem statusesAreThoseOfTheTable : Obligations.StatusesAreThoseOfTheTable := by
  intro i s t h
  cases exec_answered h with
  | done | drops => exact .inl rfl
  | notOk st hst => exact .inr hst

/-- Settles O19: an answer with another status than `OK` is the recorded flag and a response. -/
theorem notOkChangesOnlyItsFlag : Obligations.NotOkChangesOnlyItsFlag := by
  intro i s t h hne
  cases exec_answered h with
  | done | drops => exact absurd rfl hne
  | notOk st _ hres => exact ⟨hres, (record_frame s _).respond _ _⟩

/-- A put that drops the oldest entry is allowed to the host, and `FULL` is its only refusal. -/
theorem recordedFlag_of_dropsOldest {i : Instr} {s : State} {st : Status} (h : DropsOldest i s)
    (hst : st ∈ statusesBesidesOk i ∨ (s.hostInRun = true ∧ hostMayInRun i = false ∧ st = .denied)) :
    recordedFlag i st = some .fifoFull := by
  obtain ⟨rfl, -⟩ := h
  obtain rfl : st = .full := by simpa [statusesBesidesOk, hostMayInRun] using hst
  rfl

/-- Settles O18, by the answers: `OK` records nothing, a put that drops raises `FIFO_FULL`, and each other status raises
the flag that records it. -/
theorem flagsRecordTheStatus : Obligations.FlagsRecordTheStatus := by
  intro i s t g h hreset hclear
  suffices hiff : t.flag g = true ↔
      s.flag g = true ∨ recordedFlag i t.op.status = some g ∨ (g = .fifoFull ∧ DropsOldest i s) from hiff
  cases exec_answered h with
  | @done x r hdrop hflags =>
    have hkeep : x.flags = s.flags := hflags.resolve_right fun hi => hi.elim hreset hclear
    simp [State.flag, hkeep, hdrop, recordedFlag]
  | @drops x r hdrop hflags =>
    have hraise : x.flag g = (s.raise .fifoFull).flag g := by rw [State.flag, hflags, State.flag]
    rw [respond_flag, hraise, flag_raise]
    simp [hdrop, recordedFlag]
  | @notOk r st hst =>
    have hfull (hdrop : g = .fifoFull ∧ DropsOldest i s) : recordedFlag i st = some g :=
      hdrop.1 ▸ recordedFlag_of_dropsOldest hdrop.2 hst
    rw [respond_flag, record_flag, respond_op, or_iff_left_of_imp hfull]

/-! #### Non-interference: the issuer (R261) and the other axis (R256) -/

/-- An update of the state that the operations of axis `a` do not see, and with which what they write commutes. -/
structure AxisBlind (a : Axis) (f : State → State) : Prop where
  params   : ∀ s, (f s).params = s.params
  flags    : ∀ s, (f s).flags = s.flags
  kin      : ∀ s, (f s).kin = s.kin
  ports    : ∀ s, (f s).ports = s.ports
  args     : ∀ s, (f s).op.args = s.op.args
  axis     : ∀ s, (f s).axis a = s.axis a
  setAxis  : ∀ s r, (f s).setAxis a r = f (s.setAxis a r)
  setFlags : ∀ s w, (f s).setFlags w = f (s.setFlags w)
  respond  : ∀ s st r, (f s).respond st r = f (s.respond st r)

namespace AxisBlind

variable {a : Axis} {f : State → State}

theorem reject (h : AxisBlind a f) (s : State) (st : Status) (g : Option Flag) :
    (f s).reject st g = f (s.reject st g) := by
  cases g <;> simp [State.reject, h.flags, h.setFlags, h.respond]

theorem portEnc (h : AxisBlind a f) (s : State) (b : Axis) : (f s).portEnc b = s.portEnc b := by
  cases b <;> simp [State.portEnc, h.ports]

theorem portSw (h : AxisBlind a f) (s : State) (b : Axis) : (f s).portSw b = s.portSw b := by
  cases b <;> simp [State.portSw, h.ports]

/-- The own rule of an operation of axis `a` gives the same whether the update comes before it or after it. -/
theorem ownRule (h : AxisBlind a f) {i : Instr} (hi : axisOf i = some a) (s : State) :
    ownRule i (f s) = f (ownRule i s) := by
  cases i with
  | encRead b =>
    cases hi
    simp [Machine.ownRule, encRead, h.axis, h.portEnc, h.setAxis, h.respond]
  | swLap b =>
    cases hi
    simp [Machine.ownRule, swLap, h.axis, h.portSw, h.setAxis, h.respond]
  | encZero b | encPos b | encDpos b | swRestart b | pidReset b =>
    cases hi
    simp [Machine.ownRule, h.axis, h.setAxis, h.respond]
  | kinSeg b =>
    cases hi
    simp only [Machine.ownRule, kinSeg, h.kin, h.reject, h.respond, apply_ite f]
  | rampLoad b =>
    cases hi
    simp only [Machine.ownRule, rampLoad, State.mapRamp, h.axis, h.args, h.setAxis, h.reject, h.respond, apply_ite f]
  | rampInit b =>
    cases hi
    simp only [Machine.ownRule, rampInit, State.mapRamp, h.axis, h.params, h.setAxis, h.reject, h.respond, apply_ite f]
    cases travelTime (s.axis a).ramp <;> simp only [apply_ite f]
  | rampGen b =>
    cases hi
    simp only [Machine.ownRule, rampGen, State.mapRamp, h.axis, h.setAxis, h.reject, h.respond]
    cases (s.axis a).ramp.state <;> rfl
  | rampNext b =>
    cases hi
    simp only [Machine.ownRule, rampNext, State.mapRamp, h.axis, h.setAxis, h.reject, h.respond, apply_ite f]
  | rampRelease b =>
    cases hi
    simp only [Machine.ownRule, rampRelease, State.mapRamp, h.axis, h.setAxis, h.respond]
  | pidRun b =>
    cases hi
    simp only [Machine.ownRule, pidRun, State.mapPid, State.raise, h.axis, h.params, h.args, h.flags, h.setAxis,
      h.setFlags, h.respond, apply_ite f]
  | motOut b =>
    cases hi
    simp only [Machine.ownRule, motOut, State.driveDuty, h.axis, h.args, h.setAxis, h.respond]
  | _ => cases hi

end AxisBlind

/-- Other registers of the other axis are such an update. -/
theorem axisBlind_setAxis_otherAxis (a : Axis) (x : AxisRegs) : AxisBlind a (·.setAxis (otherAxis a) x) := by
  cases a <;> constructor <;> intros <;> rfl

/-- Settles O15: the right of the issuer does not depend on the other axis, nor do the denial and the own rule. -/
theorem axesDoNotInterfere : Obligations.AxesDoNotInterfere := by
  intro i a s t x hi h
  have hblind := axisBlind_setAxis_otherAxis a x
  rw [exec_eq] at h ⊢
  rw [← Outcome.next.inj h]
  simp only [State.ownerOnly, setAxis_hostInRun, State.rejectDenied, hblind.ownRule hi, hblind.reject,
    apply_ite fun u : State => u.setAxis (otherAxis a) x]

/-- Replace the issuer of the transaction on the operation port. -/
def State.setIssuer (s : State) (who : Agent) : State := s.issue who s.op.args

theorem axisBlind_setIssuer (a : Axis) (who : Agent) : AxisBlind a (·.setIssuer who) := by
  cases a <;> constructor <;> intros <;> rfl

section
variable (s : State) (who : Agent)

@[simp] theorem setIssuer_params : (s.setIssuer who).params = s.params := rfl
@[simp] theorem setIssuer_schedEn : (s.setIssuer who).schedEn = s.schedEn := rfl
@[simp] theorem setIssuer_fifo : (s.setIssuer who).fifo = s.fifo := rfl
@[simp] theorem setIssuer_axis (a : Axis) : (s.setIssuer who).axis a = s.axis a := issue_axis ..
@[simp] theorem setIssuer_task (u : TaskId) : (s.setIssuer who).task u = s.task u := issue_task ..
@[simp] theorem setIssuer_slot (k : Slot) : (s.setIssuer who).slot k = s.slot k := issue_slot ..
@[simp] theorem readReg_setIssuer (r : Reg) : readReg (s.setIssuer who) r = readReg s r := readReg_issue ..

@[simp] theorem setIssuer_respond (st : Status) (r : Words5) :
    (s.setIssuer who).respond st r = (s.respond st r).setIssuer who := rfl

@[simp] theorem setIssuer_setAxis (a : Axis) (x : AxisRegs) :
    (s.setIssuer who).setAxis a x = (s.setAxis a x).setIssuer who := by cases a <;> rfl

@[simp] theorem setIssuer_setTask (u : TaskId) (x : TaskRegs) :
    (s.setIssuer who).setTask u x = (s.setTask u x).setIssuer who := by
  rcases u with (_ | _) | _ | (_ | _) <;> rfl

@[simp] theorem setIssuer_setSlot (k : Slot) (c : SlotCell) :
    (s.setIssuer who).setSlot k c = (s.setSlot k c).setIssuer who := by
  rcases k with (_ | _) | (_ | _) | (_ | _) | _ | (_ | _) <;> rfl

end

/-! The own rules of the operations of no axis that have more than one case. -/

theorem writeCfgReg_setIssuer (r : Reg) (v : Word) (who : Agent) (s : State) :
    writeCfgReg (s.setIssuer who) r v = (writeCfgReg s r v).setIssuer who := by
  cases r <;> simp [writeCfgReg]

theorem sysStart_setIssuer (who : Agent) (s : State) : sysStart (s.setIssuer who) = (sysStart s).setIssuer who := by
  have hrefused : startRefused (s.setIssuer who) = startRefused s := rfl
  unfold sysStart
  rw [setIssuer_schedEn, hrefused]
  split_ifs <;> rfl

theorem cfgRd_setIssuer (addr : RegAddr) (who : Agent) (s : State) :
    cfgRd addr (s.setIssuer who) = (cfgRd addr s).setIssuer who := by
  unfold cfgRd
  rw [setIssuer_params]
  split
  case h_1 => rfl
  case h_2 r _ => rw [readReg_setIssuer, setIssuer_respond]

theorem cfgWr_setIssuer (addr : RegAddr) (who : Agent) (s : State) :
    cfgWr addr (s.setIssuer who) = (cfgWr addr s).setIssuer who := by
  unfold cfgWr
  rw [setIssuer_params]
  split
  case h_1 => rfl
  case h_2 r _ =>
    split
    case h_1 | h_2 => rfl
    case h_3 => exact congrArg (State.respond · .ok {}) (writeCfgReg_setIssuer ..)

theorem fifoPut_setIssuer (who : Agent) (s : State) : fifoPut (s.setIssuer who) = (fifoPut s).setIssuer who := by
  unfold fifoPut
  rw [setIssuer_fifo, setIssuer_params]
  dsimp only
  split
  case isTrue => rfl
  case isFalse => split <;> rfl

theorem fifoGet_setIssuer (who : Agent) (s : State) : fifoGet (s.setIssuer who) = (fifoGet s).setIssuer who := by
  unfold fifoGet
  rw [setIssuer_fifo]
  split <;> rfl

/-- No own rule reads the issuer; only `SYS.RESET` does not keep it, as no transaction is in progress after reset. -/
theorem ownRule_setIssuer {i : Instr} (hi : i ≠ .sysReset) (who : Agent) (s : State) :
    ownRule i (s.setIssuer who) = (ownRule i s).setIssuer who := by
  cases ha : axisOf i with
  | some a => exact (axisBlind_setIssuer a who).ownRule ha s
  | none =>
    cases i with
    | sysReset => exact absurd rfl hi
    | sysStart => exact sysStart_setIssuer who s
    | cfgRd addr => exact cfgRd_setIssuer addr who s
    | cfgWr addr => exact cfgWr_setIssuer addr who s
    | slotPut k => exact congrArg (State.respond · .ok {}) (setIssuer_setSlot s who k _)
    | slotGet k => simp [ownRule]
    | fifoPut => exact fifoPut_setIssuer who s
    | fifoGet => exact fifoGet_setIssuer who s
    | nop | sysStop | sysFault | sysClrfault | kinUpdate | kinReset | kinFwd | kinInv => rfl
    | _ => cases ha

/-- Settles O13: an allowed operation runs its own rule, whoever issues it. -/
theorem allowedOperationsDoNotDependOnTheIssuer : Obligations.AllowedOperationsDoNotDependOnTheIssuer := by
  intro i s who args h
  have hallowed (v : Agent) : hostMayInRun i = true ∨ (s.issue v args).hostInRun = false :=
    h.imp_right fun hmode => by simp [State.hostInRun, hmode]
  refine ⟨_, _, exec_of_allowed (hallowed .host), exec_of_allowed (hallowed who), ?_⟩
  by_cases hi : i = .sysReset
  · subst hi
    exact ⟨rfl, rfl, Frame.refl _ _⟩
  · have hissuer : s.issue who args = (s.issue .host args).setIssuer who := rfl
    rw [hissuer, ownRule_setIssuer hi]
    exact ⟨rfl, rfl, Frame.issue _ _ _ _⟩

end Sys2Proof.Machine
